-- ==== Sys2Proof/Word.lean ====
section
/-! DEFINITION. The word types of WXB (spec/00_scope.md R6): u8, u16, u32 as bit patterns. -/

namespace Sys2Proof

/-- A byte (u8); read as two's complement it is an i8 signal-strength sample (R6, R71). -/
abbrev Byte := BitVec 8

/-- A u16: a CRC value, a Modbus register, a start address or a register count. -/
abbrev Half := BitVec 16

/-- A u32: a timestamp, a host register word; read as two's complement, an i32 distance. -/
abbrev Word := BitVec 32

end Sys2Proof
end

