-- ==== Sys2Proof/Machine/Fields.lean ====
section
/-! DEFINITION. Byte-order and field helpers (spec/00_scope.md R6, spec/30_encoding.md R64), the constants of R5 that
bound operands, and the host register map's set of addresses (R30). Nothing here depends on State. -/

namespace Sys2Proof.Machine

/-- `BE16(h, l) = h * 256 + l` (R6): the first byte is the high one. -/
def be16 (h l : Byte) : Half := h ++ l

/-- `LE16(v) = [v[7:0], v[15:8]]` (R6): low byte first. -/
def le16 (v : Half) : List Byte := [v.extractLsb' 0 8, v.extractLsb' 8 8]

/-- `BE16bytes(v) = [v[15:8], v[7:0]]` (R6): high byte first. -/
def be16bytes (v : Half) : List Byte := [v.extractLsb' 8 8, v.extractLsb' 0 8]

/-- FB_CAP: the frame buffer's capacity and the longest frame (R5, R120). -/
def fbCap : Nat := 64

/-- RB_SIZE: the register bank's size in bytes (R5). -/
def rbSize : Nat := 20

/-- MIN_FRAME: the least frame length the processor accepts (R5, R122). -/
def minFrame : Nat := 8

/-- The longest payload of a host command (R70). -/
def maxPayload : Nat := 65535

/-- T_SILENCE in milliseconds (R5, R105). -/
def tSilence : Nat := 32

/-- HIST_CAP: how many samples the history holds (R5). -/
def histCap : Nat := 5

/-- CAL_N: the valid samples that end a calibration early (R5). -/
def calN : Nat := 10

/-- CAL_MAX: the most polls in one calibration (R5). -/
def calMax : Nat := 20

/-- SENTINEL: the invalid-measurement distance, -1.00 m (R5, R153). -/
def sentinel : Int := -100

/-- FC_READ: the one implemented function code (R5, R125). -/
def fcRead : Byte := 0x03

/-- EXC_ILLEGAL_ADDR: the one exception code (R5, R129). -/
def excIllegalAddr : Byte := 0x02

/-- The start offset in bytes, twice the register address, computed without truncation (R64). -/
def startOff (start : Half) : Nat := 2 * start.toNat

/-- The length in bytes, twice the register count, computed without truncation (R64). -/
def countOff (count : Half) : Nat := 2 * count.toNat

/-- The exact end offset of a range of registers (R64, R132). -/
def endOff (start count : Half) : Nat := startOff start + countOff count

/-- The addresses of the word registers of R30. -/
def rdWordAddrs : List Nat := [0x00, 0x04, 0x08, 0x0C, 0x10, 0x14, 0x18, 0x1C]

/-- The addresses of the host register map (R30): the eight words, the FB window 0x40 to 0x7F and the RB window
0x80 to 0x93. Every other address is reserved. -/
def rdMapped (addr : Word) : Bool :=
  rdWordAddrs.contains addr.toNat
    || (decide (0x40 ≤ addr.toNat) && decide (addr.toNat < 0x40 + fbCap))
    || (decide (0x80 ≤ addr.toNat) && decide (addr.toNat < 0x80 + rbSize))

end Sys2Proof.Machine
end

