-- ==== Sys2Proof/Syntax.lean ====
section
/-! DEFINITION. The instructions of spec/opcode_table.json (R4, R30, R70, R127 to R129), the host command they are
encoded in (R70), the response frames the block produces (R62, R63), and the names a decoder rejects by (R66, R72). -/

namespace Sys2Proof

/-- One constructor per row of spec/opcode_table.json. A signal-strength operand is the byte whose two's-complement
reading is the sample (R71). -/
inductive Instr where
  /-- CRC `[bytes]` (R93). -/
  | crc (bytes : List Byte)
  /-- INGEST `now, [bytes]` (R101). -/
  | ingest (now : Word) (bytes : List Byte)
  /-- POLL `now` (R104). -/
  | poll (now : Word)
  /-- PROC `[frame]` (R121). -/
  | proc (frame : List Byte)
  /-- SAMPLE `rssi` (R160). -/
  | sample (rssi : Byte)
  /-- DIST `rssi` (R155). -/
  | dist (rssi : Byte)
  /-- CALSTART (R181). -/
  | calstart
  /-- CALPOLL `rssi` (R182). -/
  | calpoll (rssi : Byte)
  /-- CONN (R187). -/
  | conn
  /-- DISC (R188). -/
  | disc
  /-- RD `addr` (R30). -/
  | rd (addr : Word)
  /-- Wire level: a received frame `[addr, 0x03, start, count, extra, crc]` (R61, R127). -/
  | mbReadHoldingRegisters (addr : Byte) (start count : Half) (extra : List Byte)
  /-- Wire level: produce the success response for `count` registers from `start` (R62, R128). -/
  | mbReadHoldingRegistersResponse (start count : Half)
  /-- Wire level: produce the exception response, code 0x02 (R63, R129). -/
  | mbExceptionIllegalDataAddress
  deriving DecidableEq, Repr

/-- A host command: the triple `(op, arg, payload)` of R70. -/
structure Command where
  op : Byte
  arg : Word
  payload : List Byte
  deriving DecidableEq, Repr

/-- The two kinds of encoded input WXB decodes (spec/30_encoding.md, opening): a host command and a received frame. -/
inductive Encoded where
  | command (c : Command)
  | request (frame : List Byte)
  deriving DecidableEq, Repr

/-- The two frames the block produces, as a requester reads them (R62, R63). -/
inductive Response where
  /-- `[addr, 0x03, byte_count, bytes, crc]`. -/
  | data (addr : Byte) (bytes : List Byte)
  /-- `[addr, 0x83, 0x02, crc]`. -/
  | illegalDataAddress (addr : Byte)
  deriving DecidableEq, Repr

/-- Why an encoded input is not an instruction. -/
inductive DecodeError where
  /-- `op` is 0x00 or 0x0C to 0xFF (R72). -/
  | reservedOp (op : Byte)
  /-- A bit of `arg` that R70 says must be 0 is 1 (R72). -/
  | argNotZero
  /-- The payload must be empty and is not (R72). -/
  | payloadNotEmpty
  /-- A payload longer than 65535 bytes: no command has one (R70). -/
  | payloadTooLong
  /-- A frame longer than 64 bytes (R72, R120). -/
  | frameTooLong
  /-- RD of an address outside the map of R30 (R72). -/
  | reservedAddress (addr : Word)
  /-- A frame shorter than its format (R66, R122). -/
  | frameTooShort
  /-- The last two bytes are not the CRC16 of the rest (R66, R124). -/
  | badCrc
  /-- A function code that the format does not have (R66, R130). -/
  | unimplementedFunction (fc : Byte)
  /-- A response whose byte count or exception code is not the format's (R62, R63). -/
  | malformedResponse
  deriving DecidableEq, Repr

/-- The answer of a decoder: the instruction, or the name of the reason there is none. -/
inductive Decoded where
  | ok (i : Instr)
  | rejected (e : DecodeError)
  deriving DecidableEq, Repr

end Sys2Proof
end

