-- ==== Sys2Proof/WellFormed.lean ====
section
/-! DEFINITION. Which instructions are well formed: the operand bounds of R70, R72 and R120, the length of a request
(R61) and the range a success response is made for (R62, R128). -/

namespace Sys2Proof

/-- The operand bounds of each instruction. -/
def Instr.wellFormed : Instr → Bool
  | .crc bytes => decide (bytes.length ≤ Machine.maxPayload)
  | .ingest _ bytes => decide (bytes.length ≤ Machine.maxPayload)
  | .poll _ => true
  | .proc frame => decide (frame.length ≤ Machine.fbCap)
  | .sample _ => true
  | .dist _ => true
  | .calstart => true
  | .calpoll _ => true
  | .conn => true
  | .disc => true
  | .rd addr => Machine.rdMapped addr
  | .mbReadHoldingRegisters _ _ _ extra => decide (Machine.minFrame + extra.length ≤ Machine.fbCap)
  | .mbReadHoldingRegistersResponse start count => decide (Machine.endOff start count ≤ Machine.rbSize)
  | .mbExceptionIllegalDataAddress => true

/-- A response frame that fits its one-byte count field and the bank: 0 to 20 register bytes (R62). -/
def Response.wellFormed : Response → Bool
  | .data _ bytes => decide (bytes.length ≤ Machine.rbSize)
  | .illegalDataAddress _ => true

end Sys2Proof
end

