-- ==== Sys2Proof/Decode.lean ====
section
/-! DEFINITION. The decoders, total on any input and rejecting by name, and after them the encoders. Host commands
follow the table of R70 and the refusals of R72; received frames follow R61 and R66; response frames follow R62 and
R63. -/

namespace Sys2Proof

/-- Continue when `arg` is 0 (R70: "must be 0"). -/
def needZeroArg (arg : Word) (k : Decoded) : Decoded :=
  if arg = 0 then k else .rejected .argNotZero

/-- Continue with the sample `arg[7:0]` when `arg[31:8]` is 0 (R70, R71). -/
def needRssiArg (arg : Word) (k : Byte → Decoded) : Decoded :=
  if arg.extractLsb' 8 24 = 0 then k (arg.extractLsb' 0 8) else .rejected .argNotZero

/-- Continue when the payload is empty (R70: "must be empty"). -/
def needNoPayload (payload : List Byte) (k : Decoded) : Decoded :=
  if payload = [] then k else .rejected .payloadNotEmpty

/-- Continue when the payload has at most 65535 bytes (R70). -/
def needPayload (payload : List Byte) (k : Decoded) : Decoded :=
  if payload.length ≤ Machine.maxPayload then k else .rejected .payloadTooLong

/-- Continue when the payload is a frame, at most 64 bytes (R72). -/
def needFrame (payload : List Byte) (k : Decoded) : Decoded :=
  if payload.length ≤ Machine.fbCap then k else .rejected .frameTooLong

/-- The host command decoder: the table of R70, every refusal of R72. -/
def decodeCommand (c : Command) : Decoded :=
  match c.op.toNat with
  | 0x01 => needZeroArg c.arg (needPayload c.payload (.ok (.crc c.payload)))
  | 0x02 => needPayload c.payload (.ok (.ingest c.arg c.payload))
  | 0x03 => needNoPayload c.payload (.ok (.poll c.arg))
  | 0x04 => needZeroArg c.arg (needFrame c.payload (.ok (.proc c.payload)))
  | 0x05 => needRssiArg c.arg fun r => needNoPayload c.payload (.ok (.sample r))
  | 0x06 => needRssiArg c.arg fun r => needNoPayload c.payload (.ok (.dist r))
  | 0x07 => needZeroArg c.arg (needNoPayload c.payload (.ok .calstart))
  | 0x08 => needRssiArg c.arg fun r => needNoPayload c.payload (.ok (.calpoll r))
  | 0x09 => needZeroArg c.arg (needNoPayload c.payload (.ok .conn))
  | 0x0A => needZeroArg c.arg (needNoPayload c.payload (.ok .disc))
  | 0x0B => needNoPayload c.payload
      (if Machine.rdMapped c.arg then .ok (.rd c.arg) else .rejected (.reservedAddress c.arg))
  | _ => .rejected (.reservedOp c.op)

/-- The fields of a request (R61): the two big-endian halves at bytes 2 to 5 and the bytes from 6 up to the CRC. -/
def requestFields (f : List Byte) : Instr :=
  .mbReadHoldingRegisters (f.getD 0 0) (Machine.be16 (f.getD 2 0) (f.getD 3 0)) (Machine.be16 (f.getD 4 0) (f.getD 5 0))
    ((f.take (f.length - 2)).drop 6)

/-- The decoder of a received frame, in the order of R121 less the address, which is compared with SLAVE_ADDR when the
instruction runs. -/
def decodeRequest (f : List Byte) : Decoded :=
  if Machine.fbCap < f.length then .rejected .frameTooLong
  else if f.length < Machine.minFrame then .rejected .frameTooShort
  else if !Machine.crcMatches f then .rejected .badCrc
  else if f.getD 1 0 = Machine.fcRead then .ok (requestFields f)
  else .rejected (.unimplementedFunction (f.getD 1 0))

/-- The decoder of any input to the block. -/
def decode : Encoded → Decoded
  | .command c => decodeCommand c
  | .request f => decodeRequest f

/-- Read a response frame, as its requester does (R62, R63). -/
def parseResponse (f : List Byte) : Except DecodeError Response :=
  if f.length < 5 then .error .frameTooShort
  else if !Machine.crcMatches f then .error .badCrc
  else if f.getD 1 0 = Machine.fcRead then
    if f.length = 5 + (f.getD 2 0).toNat ∧ f.length ≤ 5 + Machine.rbSize then
      .ok (.data (f.getD 0 0) ((f.take (f.length - 2)).drop 3))
    else .error .malformedResponse
  else if f.getD 1 0 = Machine.fcRead ||| 0x80 then
    if f.length = 5 ∧ f.getD 2 0 = Machine.excIllegalAddr then .ok (.illegalDataAddress (f.getD 0 0))
    else .error .malformedResponse
  else .error (.unimplementedFunction (f.getD 1 0))

/-- Which of the block's two responses answers a request for `count` registers from `start`, read off the response
frame: the frame alone does not name the registers (R62), so the request is an argument. -/
def decodeResponse (start count : Half) (f : List Byte) : Decoded :=
  match parseResponse f with
  | .ok (.data _ bytes) =>
      if bytes.length = Machine.countOff count then .ok (.mbReadHoldingRegistersResponse start count)
      else .rejected .malformedResponse
  | .ok (.illegalDataAddress _) => .ok .mbExceptionIllegalDataAddress
  | .error e => .rejected e

/-- The command word of a sample operand: the byte, zero-extended (R70, R71). -/
def rssiArg (rssi : Byte) : Word := rssi.setWidth 32

/-- The request frame of R61. -/
def requestFrame (addr : Byte) (start count : Half) (extra : List Byte) : List Byte :=
  Machine.closeFrame
    ([addr, Machine.fcRead] ++ Machine.be16bytes start ++ Machine.be16bytes count ++ extra)

/-- The encoder of a response frame (R62, R63). -/
def Response.frame : Response → List Byte
  | .data addr bytes =>
      Machine.closeFrame ([addr, Machine.fcRead, BitVec.ofNat 8 bytes.length] ++ bytes)
  | .illegalDataAddress addr =>
      Machine.closeFrame [addr, Machine.fcRead ||| 0x80, Machine.excIllegalAddr]

/-- The encoder: the command of R70 or the frame of R61. The two response formats have none: they are "produced not
decoded" and their bytes depend on the register bank (`Response.frame` writes them). -/
def encode : Instr → Option Encoded
  | .crc bytes => some (.command ⟨0x01, 0, bytes⟩)
  | .ingest now bytes => some (.command ⟨0x02, now, bytes⟩)
  | .poll now => some (.command ⟨0x03, now, []⟩)
  | .proc frame => some (.command ⟨0x04, 0, frame⟩)
  | .sample rssi => some (.command ⟨0x05, rssiArg rssi, []⟩)
  | .dist rssi => some (.command ⟨0x06, rssiArg rssi, []⟩)
  | .calstart => some (.command ⟨0x07, 0, []⟩)
  | .calpoll rssi => some (.command ⟨0x08, rssiArg rssi, []⟩)
  | .conn => some (.command ⟨0x09, 0, []⟩)
  | .disc => some (.command ⟨0x0A, 0, []⟩)
  | .rd addr => some (.command ⟨0x0B, addr, []⟩)
  | .mbReadHoldingRegisters addr start count extra => some (.request (requestFrame addr start count extra))
  | .mbReadHoldingRegistersResponse _ _ => none
  | .mbExceptionIllegalDataAddress => none

/-- The command whose bits are `w`: `op` in bits 7 to 0 (the table's match field), `arg` in bits 39 to 8, and an empty
payload; bits at `nbits` and above are 0. -/
def commandOfWord (nbits w : Nat) : Command :=
  ⟨BitVec.ofNat 8 (w % 2 ^ nbits), BitVec.ofNat 32 (w % 2 ^ nbits / 256), []⟩

/-- What the host command decoder reads from a table word. -/
def decodeTableWord (nbits w : Nat) : Option Instr :=
  match decodeCommand (commandOfWord nbits w) with
  | .ok i => some i
  | .rejected _ => none

end Sys2Proof
end

