-- ==== Sys2Proof/Config.lean ====
section
/-! DEFINITION. The configuration record (spec/00_scope.md R5, the rows marked parameter; spec/92_eei_decisions.md
"Open parameters in one place") and the free values. A configuration is an input of reset and never changes
afterwards (R230); it stands in State as the field `cfg`, which no operation writes. -/

namespace Sys2Proof

/-- The open parameter REG1_INIT: the value the source pre-populates register 1 with and does not give (R5, R15,
D17: "a model must take it as an argument"). It has no body, so nothing can be proved about its value. -/
opaque freeReg1Init : Half

/-- FREE VALUE: what a 32-bit distance register or result holds when the exact integer does not fit an i32. The spec
states no value there; with N_EXP = 5/2 it does not happen (R162). Log entry 6. -/
opaque freeDistance : Int → Word

/-- FREE VALUE: the raw distance for a reference with REF_CNT = 0 or an exponent with N_NUM = 0, of which R152 gives
no exponent `x`; arguments REF_SUM, REF_CNT and the reading. No reachable state asks for it (R31). Log entry 7. -/
opaque freeRaw : Int → Nat → Int → Int

/-- The parameters of R5 with their stated defaults. -/
structure Config where
  /-- SLAVE_ADDR (R16), default 1. -/
  slaveAddr : Byte := 1
  /-- REG1_INIT (R15), open, no default. -/
  reg1Init : Half
  /-- CLR_ON_DISC (R25), default 0. -/
  clrOnDisc : Bool := false
  /-- REF_INIT in dBm as an i8 (R19), default -59 = 0xC5. -/
  refInit : Byte := 0xC5
  /-- Numerator of N_EXP (R20), default 5. -/
  nNum : Nat := 5
  /-- Denominator of N_EXP (R20), default 2. -/
  nDen : Nat := 2
  deriving DecidableEq, Repr

/-- The legal parameter values (D11): REF_INIT in -128 to -1 and N_EXP a positive rational. -/
abbrev Config.WellFormed (c : Config) : Prop :=
  c.refInit.toInt < 0 ∧ 0 < c.nNum ∧ 0 < c.nDen

/-- N_EXP has its default value 5/2, written 5 over 2 (R5, R20). -/
abbrev Config.DefaultExponent (c : Config) : Prop :=
  c.nNum = 5 ∧ c.nDen = 2

/-- The default configuration: every stated default, REG1_INIT left free. -/
def Config.default : Config := { reg1Init := freeReg1Init }

end Sys2Proof
end

