-- ==== Sys2Proof/Machine/State.lean ====
section
/-! DEFINITION. The state of WXB (spec/10_state.md), the reasons a step can stop, and the state after reset (R33,
R230). All of it is plain data. -/

namespace Sys2Proof.Machine

/-- A byte storage: the cells that differ from what an unlisted address reads as, addresses strictly rising. -/
abbrev Memory := List Host.Cell

/-- MODE (R21): 0 = NORMAL, 1 = CAL. -/
inductive Mode where
  | normal
  | cal
  deriving DecidableEq, Repr

/-- The status a CALPOLL returns (R71, R182). -/
inductive CalStatus where
  | busy
  | doneOk
  | doneFail
  | ignored
  deriving DecidableEq, Repr

/-- What an operation returns to the host (R6, R70, R71). `none` is the empty byte sequence. -/
inductive Result where
  /-- A byte sequence in wire order (CRC, POLL, PROC), or none. -/
  | bytes (s : List Byte)
  /-- INGEST's number of appended bytes, 0 to 64. -/
  | count (n : Nat)
  /-- A distance in centimetres, two's complement (SAMPLE, DIST). -/
  | i32 (v : Word)
  /-- CALPOLL's status. -/
  | status (c : CalStatus)
  /-- RD's register value. -/
  | u32 (v : Word)
  deriving DecidableEq, Repr

/-- Why the machine stops with a fault. The spec gives WXB no fault (R7, R200); each of these is an access to a cell
that does not exist, which no state reachable from reset makes. Safe: the machine stops where the spec says nothing. -/
inductive Fault where
  /-- Raised by INGEST and POLL when CUR is above 64: cell FB[64] and above do not exist (R12, R13). Safe. -/
  | cursorOutOfRange
  /-- Raised by SAMPLE in NORMAL mode when HLEN is above 5: cell HIST[5] and above do not exist (R17). Safe. -/
  | historyOutOfRange
  deriving DecidableEq, Repr

/-- Why there is no meaning for what was presented. -/
inductive Refusal where
  /-- Raised by the dispatch for an instruction without a meaning. Safe. No arm raises it. -/
  | notModelled (mnemonic : String)
  /-- Raised by the step for a command R72 refuses, by RD of a reserved address (R30) and by a frame above 64 bytes
  (R72, R120). Safe: R72 gives a refused command no meaning. -/
  | rejected (e : DecodeError)
  /-- Raised by the success response for a range that leaves the bank: MemRead is defined only for
  `addr + n <= 20` (R6). Safe: R127 never asks for one. -/
  | bankRangeUndefined
  deriving DecidableEq, Repr

/-- Everything the spec gives the machine, and the host's side of its interface. -/
structure State where
  /-- The configuration (R5): SLAVE_ADDR (R16), CLR_ON_DISC (R25), REG1_INIT (R15), REF_INIT (R19), N_EXP (R20). -/
  cfg : Config
  /-- FB[0..63] (R12). Unlisted cells read 0x00. -/
  fb : Memory
  /-- CUR (R13), legal values 0 to 64. -/
  cur : BitVec 7
  /-- LAST_RX (R14), milliseconds. -/
  lastRx : Word
  /-- RB[0..19] (R15). Unlisted bytes read their reset image. -/
  rb : Memory
  /-- HIST[0..4] (R17), each an i8, HIST[0] the oldest. -/
  hist : Vector Byte 5
  /-- HLEN (R17), legal values 0 to 5. -/
  hlen : BitVec 3
  /-- EST (R18), an i32 in centimetres. -/
  est : Word
  /-- REF_SUM (R19), an i12. -/
  refSum : BitVec 12
  /-- REF_CNT (R19), legal values 1 to 10. -/
  refCnt : BitVec 4
  /-- MODE (R21). -/
  mode : Mode
  /-- CAL_SUM (R22), an i12. -/
  calSum : BitVec 12
  /-- CAL_CNT (R22), 0 to 10. -/
  calCnt : BitVec 4
  /-- CAL_TRIES (R22), 0 to 20. -/
  calTries : BitVec 5
  /-- CAL_OK (R23). -/
  calOk : Bool
  /-- ACTIVE (R24). -/
  active : Bool
  /-- TX (R28): every byte sent to the UART collaborator, first byte first. -/
  tx : List Byte
  /-- The model's own: the commands the host has presented and the block has not started, oldest first (R70, R240). -/
  inbox : List Command
  /-- The model's own: the results returned so far, oldest first (R28, D22). -/
  results : List Result
  deriving DecidableEq, Repr

/-- The state after reset for a configuration (R33, R230), nothing presented by the host. -/
def State.resetWith (c : Config) : State where
  cfg := c
  fb := []
  cur := 0
  lastRx := 0
  rb := []
  hist := #v[0, 0, 0, 0, 0]
  hlen := 0
  est := 0xFFFFFF9C
  refSum := c.refInit.signExtend 12
  refCnt := 1
  mode := .normal
  calSum := 0
  calCnt := 0
  calTries := 0
  calOk := false
  active := false
  tx := []
  inbox := []
  results := []

/-- The state after reset with every parameter at its stated default and REG1_INIT free. -/
def State.reset : State := State.resetWith Config.default

end Sys2Proof.Machine
end

