-- ==== Sys2Proof/Machine/Ops.lean ====
section
/-! DEFINITION. The named operations over the storages and registers: reading and writing a byte storage in its
canonical form, the views FB, RB and HIST, the updates the meanings are written with, and the block's one exception
(R129, R205), which is a response and not a trap: there is no entry and no return (R205, R206). -/

namespace Sys2Proof.Machine

/-- What an unlisted cell of FB reads as: its reset contents, 0x00 (R12, R33). -/
def fbReset (_ : Nat) : Byte := 0x00

/-- What an unlisted byte of RB reads as: the reset image of R15 and R33. -/
def rbReset (c : Config) : Nat → Byte
  | 0 => 0x04
  | 1 => 0xD2
  | 2 => (be16bytes c.reg1Init).getD 0 0
  | 3 => (be16bytes c.reg1Init).getD 1 0
  | _ => 0x00

/-- Read one byte; `dflt` is what an unlisted address reads as. -/
def Memory.read (dflt : Nat → Byte) : Memory → Nat → Byte
  | [], a => dflt a
  | (b, v) :: m, a => if a = b then v else Memory.read dflt m a

/-- Write one byte, keeping addresses strictly rising and listing no byte an unlisted address would read as. -/
def Memory.write (dflt : Nat → Byte) : Memory → Nat → Byte → Memory
  | [], a, v => if v = dflt a then [] else [(a, v)]
  | (b, w) :: m, a, v =>
      if a < b then (if v = dflt a then (b, w) :: m else (a, v) :: (b, w) :: m)
      else if a = b then (if v = dflt a then m else (a, v) :: m)
      else (b, w) :: Memory.write dflt m a v

/-- Write consecutive bytes from address `a` up. -/
def Memory.writeList (dflt : Nat → Byte) (m : Memory) (a : Nat) : List Byte → Memory
  | [] => m
  | v :: vs => Memory.writeList dflt (Memory.write dflt m a v) (a + 1) vs

/-- Every listed address is at least `lo`, they rise strictly, and none holds what it would read as unlisted. -/
def Memory.wfFrom (dflt : Nat → Byte) (size : Nat) (lo : Nat) : Memory → Bool
  | [] => true
  | (b, v) :: m => decide (lo ≤ b) && decide (b < size) && decide (v ≠ dflt b) && Memory.wfFrom dflt size (b + 1) m

/-- The canonical form of a storage of `size` bytes. -/
def Memory.wf (dflt : Nat → Byte) (size : Nat) (m : Memory) : Bool := Memory.wfFrom dflt size 0 m

/-- `FB[i]` (R12). -/
def State.fbByte (s : State) (i : Nat) : Byte := Memory.read fbReset s.fb i

/-- `RB[i]` (R15). -/
def State.rbByte (s : State) (i : Nat) : Byte := Memory.read (rbReset s.cfg) s.rb i

/-- The frame in the buffer, `FB[0 .. CUR]` (R12, R104). -/
def State.frame (s : State) : List Byte := (List.range s.cur.toNat).map s.fbByte

/-- `MemRead(addr, n)`: the bytes `RB[addr .. addr + n]`, lowest index first (R6); asked for only when
`addr + n <= 20`. -/
def State.memRead (s : State) (addr n : Nat) : List Byte := (List.range n).map fun i => s.rbByte (addr + i)

/-- Return a result to the host (R6, D22). -/
def State.emit (s : State) (r : Result) : State := { s with results := s.results ++ [r] }

/-- Append to the output stream (R28). -/
def State.transmit (s : State) (bs : List Byte) : State := { s with tx := s.tx ++ bs }

/-- Store bytes at the cursor, advance it, and set the timestamp (R101). -/
def State.storeBytes (s : State) (now : Word) (bs : List Byte) : State :=
  { s with
    fb := Memory.writeList fbReset s.fb s.cur.toNat bs
    cur := BitVec.ofNat 7 (s.cur.toNat + bs.length)
    lastRx := now }

/-- Empty the frame buffer: `CUR <- 0`, the cells kept (R104). -/
def State.clearFrame (s : State) : State := { s with cur := 0 }

/-- `HIST[0 .. len(h)] <- h ; HLEN <- len(h)`, the cells above kept (R160). -/
def State.storeHistory (s : State) (h : List Byte) : State :=
  { s with
    hist := #v[h.getD 0 s.hist[0], h.getD 1 s.hist[1], h.getD 2 s.hist[2], h.getD 3 s.hist[3], h.getD 4 s.hist[4]]
    hlen := BitVec.ofNat 3 h.length }

/-- `EST <- v` (R160). -/
def State.setEst (s : State) (v : Word) : State := { s with est := v }

/-- `HLEN <- 0 ; EST <- -100`, the cells kept (R188). -/
def State.clearEstimate (s : State) : State := { s with hlen := 0, est := 0xFFFFFF9C }

/-- Enter CAL mode with the counters and CAL_OK cleared (R181). -/
def State.enterCal (s : State) : State :=
  { s with mode := .cal, calSum := 0, calCnt := 0, calTries := 0, calOk := false }

/-- Record one poll: `CAL_TRIES`, `CAL_SUM`, `CAL_CNT` (R182). -/
def State.setCal (s : State) (tries : Nat) (sum : Int) (cnt : Nat) : State :=
  { s with calTries := BitVec.ofNat 5 tries, calSum := BitVec.ofInt 12 sum, calCnt := BitVec.ofNat 4 cnt }

/-- Leave CAL mode with the report `ok` (R182). -/
def State.leaveCal (s : State) (ok : Bool) : State := { s with mode := .normal, calOk := ok }

/-- `REF_SUM <- sum ; REF_CNT <- cnt` (R183). -/
def State.setReference (s : State) (sum : Int) (cnt : Nat) : State :=
  { s with refSum := BitVec.ofInt 12 sum, refCnt := BitVec.ofNat 4 cnt }

/-- `ACTIVE <- b` (R187, R188). -/
def State.setActive (s : State) (b : Bool) : State := { s with active := b }

/-- Take the oldest command off the host's queue. -/
def State.takeCommand (s : State) (rest : List Command) : State := { s with inbox := rest }

/-- `raise IllegalDataAddress(fc)`: the exception response, `[SLAVE_ADDR, fc OR 0x80, 0x02]` and its CRC. The state is
not an output: nothing is saved and nothing is recorded (R129, R205). -/
def raiseIllegalDataAddress (s : State) (fc : Byte) : List Byte :=
  closeFrame [s.cfg.slaveAddr, fc ||| 0x80, excIllegalAddr]

end Sys2Proof.Machine
end

