-- ==== Sys2Proof/Machine/Operands.lean ====
section
/-! DEFINITION. The operand forms: a signal-strength reading (R71, R151), elapsed time (R103), the samples of the
history (R17), and how an exact distance is held in 32 bits (R18). -/

namespace Sys2Proof.Machine

/-- `sext_8` of a sample operand, in dBm (R71). -/
def rssiOf (r : Byte) : Int := r.toInt

/-- A reading is valid exactly when it is negative (R151). -/
def validReading (rssi : Int) : Bool := decide (rssi < 0)

/-- `elapsed(now) = (now - LAST_RX) mod 2^32` (R103). -/
def State.elapsed (s : State) (now : Word) : Nat := (now - s.lastRx).toNat

/-- The samples in the history, oldest first (R17). -/
def State.samples (s : State) : List Byte := s.hist.toList.take s.hlen.toNat

/-- Step 1 of R160: the history with the new sample appended, the oldest evicted when it is full. -/
def State.appendSample (s : State) (r : Byte) : List Byte :=
  if s.hlen.toNat = histCap then s.hist.toList.drop 1 ++ [r] else s.samples ++ [r]

/-- An exact number of centimetres as an i32 (R18, R162); a free value where it does not fit one (log entry 6). -/
def distanceWord (v : Int) : Word :=
  if -2147483648 ≤ v ∧ v ≤ 2147483647 then BitVec.ofInt 32 v else freeDistance v

end Sys2Proof.Machine
end

