-- ==== Sys2Proof/Machine/Calibration.lean ====
section
/-! DEFINITION. The calibration family: the operations CALSTART and CALPOLL (spec/44_calibration_and_link.md). -/

namespace Sys2Proof.Machine

/-- CALSTART (R181): enter CAL mode; no change when already calibrating. -/
def execCalstart (s : State) : Host.Outcome State Fault Refusal :=
  match s.mode with
  | .normal => .next (s.enterCal.emit (.bytes []))
  | .cal => .next (s.emit (.bytes []))

/-- `CAL_SUM + rssi` for a valid reading, else `CAL_SUM` (R182). -/
def State.pollSum (s : State) (rssi : Int) : Int :=
  if validReading rssi then s.calSum.toInt + rssi else s.calSum.toInt

/-- `CAL_CNT + 1` for a valid reading, else `CAL_CNT` (R182). -/
def State.pollCnt (s : State) (rssi : Int) : Nat :=
  if validReading rssi then s.calCnt.toNat + 1 else s.calCnt.toNat

/-- `CAL_TRIES + 1` (R182). -/
def State.pollTries (s : State) : Nat := s.calTries.toNat + 1

/-- CALPOLL (R182, R183): count the poll, retain a valid reading, and end the calibration at the tenth valid reading or
the twentieth poll; the reference changes only there, and only with at least one valid reading. -/
def execCalpoll (rssi : Byte) (s : State) : Host.Outcome State Fault Refusal :=
  match s.mode with
  | .normal => .next (s.emit (.status .ignored))
  | .cal =>
      let sum := s.pollSum (rssiOf rssi)
      let cnt := s.pollCnt (rssiOf rssi)
      let polled := s.setCal s.pollTries sum cnt
      if cnt = calN ∨ s.pollTries = calMax then
        if 1 ≤ cnt then .next (((polled.leaveCal true).setReference sum cnt).emit (.status .doneOk))
        else .next ((polled.leaveCal false).emit (.status .doneFail))
      else .next (polled.emit (.status .busy))

end Sys2Proof.Machine
end

