-- ==== Sys2Proof/Machine/CrcEngine.lean ====
section
/-! DEFINITION. The CRC16 Engine family: the operation CRC (spec/40_crc16.md). -/

namespace Sys2Proof.Machine

/-- CRC (R93): returns `LE16(CRC16(bytes))`; no state is read or written. -/
def execCrc (bytes : List Byte) (s : State) : Host.Outcome State Fault Refusal :=
  .next (s.emit (.bytes (le16 (crc16 bytes))))

end Sys2Proof.Machine
end

