-- ==== Sys2Proof/Machine/Modbus.lean ====
section
/-! DEFINITION. The Modbus Request Processor family: `Process`, the operation PROC, and the three wire formats
(spec/42_modbus_processor.md). -/

namespace Sys2Proof.Machine

/-- `Success(start_off, count_off)` (R128): SLAVE_ADDR, 0x03, the byte count, the slice of RB, and the CRC. -/
def successResponse (s : State) (start count : Half) : List Byte :=
  closeFrame
    ([s.cfg.slaveAddr, fcRead, BitVec.ofNat 8 (countOff count)] ++ s.memRead (startOff start) (countOff count))

/-- `ReadHolding` on the decoded fields (R127): the exception when the exact end offset leaves the bank. -/
def readHolding (s : State) (start count : Half) : List Byte :=
  if rbSize < endOff start count then raiseIllegalDataAddress s fcRead else successResponse s start count

/-- `Process(f)` (R121): length, address, CRC, function code, in this order; `[]` is "no response" (R120). -/
def process (s : State) (f : List Byte) : List Byte :=
  if f.length < minFrame then []
  else if f.getD 0 0 ≠ s.cfg.slaveAddr then []
  else if !crcMatches f then []
  else if f.getD 1 0 = fcRead then
    readHolding s (be16 (f.getD 2 0) (f.getD 3 0)) (be16 (f.getD 4 0) (f.getD 5 0))
  else []

/-- PROC (R121): the result is `Process(frame)`; FB, CUR, LAST_RX and TX are not touched. A frame above 64 bytes is
refused (R72). -/
def execProc (frame : List Byte) (s : State) : Host.Outcome State Fault Refusal :=
  if fbCap < frame.length then .refused (.rejected .frameTooLong) else .next (s.emit (.bytes (process s frame)))

/-- The wire-level READ HOLDING REGISTERS (R127), as `Process` runs it on a frame whose length, CRC and function code
it has accepted: no response to a foreign address (R123), else `ReadHolding`. The extra bytes are ignored (R61). -/
def execMbReadHoldingRegisters (addr : Byte) (start count : Half) (extra : List Byte) (s : State) :
    Host.Outcome State Fault Refusal :=
  if fbCap < minFrame + extra.length then .refused (.rejected .frameTooLong)
  else if addr ≠ s.cfg.slaveAddr then .next (s.emit (.bytes []))
  else .next (s.emit (.bytes (readHolding s start count)))

/-- The success response (R128): returned as the result; no state is written. MemRead is defined only inside the bank
(R6). -/
def execMbReadHoldingRegistersResponse (start count : Half) (s : State) : Host.Outcome State Fault Refusal :=
  if rbSize < endOff start count then .refused .bankRangeUndefined
  else .next (s.emit (.bytes (successResponse s start count)))

/-- The exception response "illegal data address" (R129): returned as the result; nothing is recorded. -/
def execMbExceptionIllegalDataAddress (s : State) : Host.Outcome State Fault Refusal :=
  .next (s.emit (.bytes (raiseIllegalDataAddress s fcRead)))

end Sys2Proof.Machine
end

