-- ==== Sys2Proof/Machine/FrameAssembler.lean ====
section
/-! DEFINITION. The Frame Assembler family: the operations INGEST and POLL (spec/41_frame_assembler.md). -/

namespace Sys2Proof.Machine

/-- How many of `n` available bytes fit: `min(n, 64 - CUR)` (R101). -/
def State.roomFor (s : State) (n : Nat) : Nat := min n (fbCap - s.cur.toNat)

/-- INGEST (R101): store what fits, drop the rest, and set LAST_RX only when a byte was stored. The buffer is never
cleared here (R102). -/
def execIngest (now : Word) (bytes : List Byte) (s : State) : Host.Outcome State Fault Refusal :=
  if fbCap < s.cur.toNat then .fault .cursorOutOfRange
  else if s.roomFor bytes.length = 0 then .next (s.emit (.count 0))
  else .next ((s.storeBytes now (bytes.take (s.roomFor bytes.length))).emit (.count (s.roomFor bytes.length)))

/-- POLL (R104): when bytes are held and more than 32 ms have passed, hand the frame to `Process`, empty the buffer
whatever the outcome, and send the response. -/
def execPoll (now : Word) (s : State) : Host.Outcome State Fault Refusal :=
  if s.cur = 0 ∨ s.elapsed now ≤ tSilence then .next (s.emit (.bytes []))
  else if fbCap < s.cur.toNat then .fault .cursorOutOfRange
  else .next ((s.clearFrame.transmit (process s s.frame)).emit (.bytes (process s s.frame)))

end Sys2Proof.Machine
end

