-- ==== Sys2Proof/Machine/Link.lean ====
section
/-! DEFINITION. The link family: the operations CONN and DISC (spec/44_calibration_and_link.md). -/

namespace Sys2Proof.Machine

/-- CONN (R187): `ACTIVE <- 1`. -/
def execConn (s : State) : Host.Outcome State Fault Refusal :=
  .next ((s.setActive true).emit (.bytes []))

/-- DISC (R188): `ACTIVE <- 0`; HLEN and EST are cleared only when CLR_ON_DISC = 1. -/
def execDisc (s : State) : Host.Outcome State Fault Refusal :=
  if s.cfg.clrOnDisc then .next ((s.setActive false).clearEstimate.emit (.bytes []))
  else .next ((s.setActive false).emit (.bytes []))

end Sys2Proof.Machine
end

