-- ==== Sys2Proof/Machine/Flags.lean ====
section
/-! DEFINITION. The status bits of R29 and the packed words RD shows them in (R30). WXB has no condition codes. -/

namespace Sys2Proof.Machine

/-- EST_VALID: not stored, the predicate `EST >= 0` (R18, R29). -/
def State.estValid (s : State) : Bool := decide (0 ≤ s.est.toInt)

/-- MODE as a bit: 0 = NORMAL, 1 = CAL (R21). -/
def Mode.bit : Mode → Bool
  | .normal => false
  | .cal => true

/-- The code of a CALPOLL status (R71). -/
def CalStatus.code : CalStatus → Nat
  | .busy => 0
  | .doneOk => 1
  | .doneFail => 2
  | .ignored => 3

/-- A field's value at bits `lo + w - 1` to `lo` of a register word whose other bits are zero (R30). -/
def fieldAt {w : Nat} (lo : Nat) (v : BitVec w) : Word := v.setWidth 32 <<< lo

/-- A Bool as the bit `lo` of a register word. -/
def bitAt (lo : Nat) (b : Bool) : Word := fieldAt lo (BitVec.ofBool b)

/-- STATUS at 0x00 (R30). -/
def State.statusWord (s : State) : Word :=
  bitAt 0 s.active ||| bitAt 1 s.mode.bit ||| bitAt 2 s.calOk ||| bitAt 3 s.estValid
    ||| fieldAt 4 s.cur ||| fieldAt 11 s.hlen

/-- REF at 0x0C (R30). -/
def State.refWord (s : State) : Word := fieldAt 0 s.refSum ||| fieldAt 12 s.refCnt

/-- CAL at 0x10 (R30). -/
def State.calWord (s : State) : Word := fieldAt 0 s.calSum ||| fieldAt 12 s.calCnt ||| fieldAt 16 s.calTries

/-- HIST_LO at 0x14 (R30): HIST[i] in bits 8i+7 to 8i. -/
def State.histLoWord (s : State) : Word :=
  fieldAt 0 s.hist[0] ||| fieldAt 8 s.hist[1] ||| fieldAt 16 s.hist[2] ||| fieldAt 24 s.hist[3]

/-- HIST_HI at 0x18 (R30). -/
def State.histHiWord (s : State) : Word := fieldAt 0 s.hist[4]

/-- CONFIG at 0x1C (R30). -/
def State.configWord (s : State) : Word := fieldAt 0 s.cfg.slaveAddr ||| bitAt 8 s.cfg.clrOnDisc

end Sys2Proof.Machine
end

