-- ==== Sys2Proof/Machine/RegisterMap.lean ====
section
/-! DEFINITION. The host register map and the operation RD (spec/10_state.md R30). -/

namespace Sys2Proof.Machine

/-- The contents of a word register or a byte window; used at the addresses of `rdMapped` only. -/
def State.register (s : State) (addr : Nat) : Word :=
  match addr with
  | 0x00 => s.statusWord
  | 0x04 => s.lastRx
  | 0x08 => s.est
  | 0x0C => s.refWord
  | 0x10 => s.calWord
  | 0x14 => s.histLoWord
  | 0x18 => s.histHiWord
  | 0x1C => s.configWord
  | a => if a < 0x80 then (s.fbByte (a - 0x40)).setWidth 32 else (s.rbByte (a - 0x80)).setWidth 32

/-- RD (R30): the register's value, no state change; a reserved address is refused (R72). -/
def execRd (addr : Word) (s : State) : Host.Outcome State Fault Refusal :=
  if rdMapped addr then .next (s.emit (.u32 (s.register addr.toNat)))
  else .refused (.rejected (.reservedAddress addr))

end Sys2Proof.Machine
end

