-- ==== Sys2Proof/Machine/RssiDistance.lean ====
section
/-! DEFINITION. The RSSI Filter and Distance Model family: the path-loss function, the median, smoothing, and the
operations SAMPLE and DIST (spec/43_rssi_distance.md). -/

namespace Sys2Proof.Machine

/-- `P` of R152: `(REF_SUM - rssi * REF_CNT) * N_DEN`. -/
def pathP (c : Config) (refSum : Int) (refCnt : Nat) (rssi : Int) : Int :=
  (refSum - rssi * refCnt) * c.nDen

/-- `Q` of R152: `10 * N_NUM * REF_CNT`. -/
def pathQ (c : Config) (refCnt : Nat) : Nat := 10 * c.nNum * refCnt

/-- The inequality of R154, `200^Q * 10^Pp < (2*D + 1)^Q * 10^Pm`: the exact distance is below `D + 1/2`. -/
def roundsBelow (p : Int) (q d : Nat) : Bool :=
  decide (200 ^ q * 10 ^ p.toNat < (2 * d + 1) ^ q * 10 ^ (-p).toNat)

/-- The least `d` with `ok d`, for an `ok` that stays true once true and is true somewhere below `base + 2^bits`,
found one bit at a time from the top. -/
def leastFrom (ok : Nat → Bool) : Nat → Nat → Nat
  | 0, base => base
  | bits + 1, base =>
      if ok (base + 2 ^ bits - 1) then leastFrom ok bits base else leastFrom ok bits (base + 2 ^ bits)

/-- How many bits hold the rounded distance: it is at most `200 * 10^(Pp div Q + 1)`. -/
def distanceBits (p : Int) (q : Nat) : Nat := Nat.log2 (200 * 10 ^ (p.toNat / q + 1)) + 1

/-- `rnd(100 * 10^(P/Q))` by R154: the least `D >= 0` of its inequality. -/
def roundedDistance (p : Int) (q : Nat) : Nat := leastFrom (roundsBelow p q) (distanceBits p q) 0

/-- `Raw(rssi)` in centimetres (R153): the sentinel for an invalid reading, else the rounded path-loss distance. For
`Q = 0` the spec gives no exponent and the value is free (log entry 7). -/
def rawDistance (c : Config) (refSum : Int) (refCnt : Nat) (rssi : Int) : Int :=
  if !validReading rssi then sentinel
  else if pathQ c refCnt = 0 then freeRaw refSum refCnt rssi
  else (roundedDistance (pathP c refSum refCnt rssi) (pathQ c refCnt) : Nat)

/-- `Raw(rssi)` under the reference and exponent the state holds (R155, R160). -/
def State.raw (s : State) (rssi : Int) : Int := rawDistance s.cfg s.refSum.toInt s.refCnt.toNat rssi

/-- Insert into an ascending list. -/
def insertAscending (x : Int) : List Int → List Int
  | [] => [x]
  | y :: ys => if x ≤ y then x :: y :: ys else y :: insertAscending x ys

/-- Sort into ascending order (R156). -/
def sortAscending : List Int → List Int
  | [] => []
  | x :: xs => insertAscending x (sortAscending xs)

/-- `Median(h)`: the element at index `m div 2` of the ascending sort (R156). -/
def median (h : List Int) : Int := (sortAscending h).getD (h.length / 2) 0

/-- `Smooth(prev, raw) = (2 * (raw + 4 * prev) + 5) div 10` with floor division (R157). -/
def smooth (prev raw : Int) : Int := (2 * (raw + 4 * prev) + 5) / 10

/-- Step 4 of R160: adopt the raw distance when no prior valid estimate exists (`EST < 0`), else smooth. -/
def State.nextEstimate (s : State) (raw : Int) : Int :=
  if s.estValid then smooth s.est.toInt raw else raw

/-- SAMPLE (R160): ignored in CAL mode; else append, take the median, convert it to a distance and smooth. -/
def execSample (rssi : Byte) (s : State) : Host.Outcome State Fault Refusal :=
  match s.mode with
  | .cal => .next (s.emit (.i32 s.est))
  | .normal =>
      if histCap < s.hlen.toNat then .fault .historyOutOfRange
      else
        let h := s.appendSample rssi
        let est := distanceWord (s.nextEstimate (s.raw (median (h.map rssiOf))))
        .next (((s.storeHistory h).setEst est).emit (.i32 est))

/-- DIST (R155): the raw distance of one reading, in either mode; no state is written. -/
def execDist (rssi : Byte) (s : State) : Host.Outcome State Fault Refusal :=
  .next (s.emit (.i32 (distanceWord (s.raw (rssiOf rssi)))))

end Sys2Proof.Machine
end

