-- ==== Sys2Proof/Machine/Dispatch.lean ====
section
/-! DEFINITION. One arm per instruction of spec/opcode_table.json. -/

namespace Sys2Proof.Machine

def exec (i : Instr) (s : State) : Host.Outcome State Fault Refusal :=
  match i with
  | .crc bytes => Sys2Proof.Machine.execCrc bytes s
  | .ingest now bytes => Sys2Proof.Machine.execIngest now bytes s
  | .poll now => Sys2Proof.Machine.execPoll now s
  | .proc frame => Sys2Proof.Machine.execProc frame s
  | .sample rssi => Sys2Proof.Machine.execSample rssi s
  | .dist rssi => Sys2Proof.Machine.execDist rssi s
  | .calstart => Sys2Proof.Machine.execCalstart s
  | .calpoll rssi => Sys2Proof.Machine.execCalpoll rssi s
  | .conn => Sys2Proof.Machine.execConn s
  | .disc => Sys2Proof.Machine.execDisc s
  | .rd addr => Sys2Proof.Machine.execRd addr s
  | .mbReadHoldingRegisters addr start count extra => Sys2Proof.Machine.execMbReadHoldingRegisters addr start count extra s
  | .mbReadHoldingRegistersResponse start count => Sys2Proof.Machine.execMbReadHoldingRegistersResponse start count s
  | .mbExceptionIllegalDataAddress => Sys2Proof.Machine.execMbExceptionIllegalDataAddress s

end Sys2Proof.Machine
end

