-- ==== Sys2Proof/Machine/Step.lean ====
section
/-! DEFINITION. One step: the block starts the oldest command the host has presented and runs it to completion (R46,
R240). WXB has no program counter and fetches nothing (R11): the host's queue stands in their place. -/

namespace Sys2Proof.Machine

/-- With no command presented the block does nothing; a command R72 refuses stops the run; else the operation runs. -/
def step (s : State) : Host.Outcome State Fault Refusal :=
  match s.inbox with
  | [] => .next s
  | c :: rest =>
      match decodeCommand c with
      | .ok i => exec i (s.takeCommand rest)
      | .rejected e => .refused (.rejected e)

/-- The state with the command of a table word presented first: the host puts it at the head of the queue. -/
def State.withFetchWord (s : State) (nbits w : Nat) : State :=
  { s with inbox := commandOfWord nbits w :: s.inbox }

end Sys2Proof.Machine
end

