-- ==== Sys2Proof/Safety.lean ====
section
/-! DEFINITION. What a good state is: the invariants of spec/10_state.md R31 and the canonical form of the storages. -/

namespace Sys2Proof.Machine

/-- The wire side: CUR in 0 to 64 (R13), the storages in canonical form, and RB equal to its reset image (R31, R44). -/
abbrev State.WireInv (s : State) : Prop :=
  s.cur.toNat ≤ fbCap ∧ Memory.wf fbReset fbCap s.fb = true ∧ Memory.wf (rbReset s.cfg) rbSize s.rb = true ∧
    (∀ i < rbSize, s.rbByte i = rbReset s.cfg i)

/-- The history's length (R17, R31). -/
abbrev State.HistoryInv (s : State) : Prop := s.hlen.toNat ≤ histCap

/-- The reference (R19, R31): REF_CNT in 1 to 10 and the mean in -128 to -1 dBm. -/
abbrev State.ReferenceInv (s : State) : Prop :=
  1 ≤ s.refCnt.toNat ∧ s.refCnt.toNat ≤ calN ∧
    -128 * (s.refCnt.toNat : Int) ≤ s.refSum.toInt ∧ s.refSum.toInt ≤ -(s.refCnt.toNat : Int)

/-- The calibration counters (R22, R31). -/
abbrev State.CalibrationInv (s : State) : Prop :=
  s.calCnt.toNat ≤ s.calTries.toNat ∧ s.calTries.toNat ≤ calMax ∧ s.calCnt.toNat ≤ calN ∧
    -128 * (s.calCnt.toNat : Int) ≤ s.calSum.toInt ∧ s.calSum.toInt ≤ -(s.calCnt.toNat : Int) ∧
    (s.mode = .cal → s.calCnt.toNat < calN ∧ s.calTries.toNat < calMax)

/-- The estimate (R18, R31) under the default exponent: the sentinel, or -20 to 12 022 644. The upper bound is that of
N_EXP = 5/2 (R153, R162), so for another exponent nothing is claimed. -/
abbrev State.EstimateInv (s : State) : Prop :=
  s.cfg.DefaultExponent → s.est.toInt = sentinel ∨ (-20 ≤ s.est.toInt ∧ s.est.toInt ≤ 12022644)

/-- The invariant of R31, with a legal configuration (D11). -/
abbrev State.Inv (s : State) : Prop :=
  s.cfg.WellFormed ∧ s.WireInv ∧ s.HistoryInv ∧ s.ReferenceInv ∧ s.CalibrationInv ∧ s.EstimateInv

/-- An outcome that is no fault: a next state, or a refusal of what the host presented (R200, R7). -/
def NoFault (o : Host.Outcome State Fault Refusal) : Prop := ∀ f, o ≠ .fault f

/-- The instructions of the wire side: what they read and write is FB, CUR, LAST_RX, RB, TX and SLAVE_ADDR (R32). CRC
reads and writes no state and is counted here. -/
def wireSide : Instr → Bool
  | .crc _ | .ingest _ _ | .poll _ | .proc _ | .mbReadHoldingRegisters _ _ _ _
  | .mbReadHoldingRegistersResponse _ _ | .mbExceptionIllegalDataAddress => true
  | .sample _ | .dist _ | .calstart | .calpoll _ | .conn | .disc | .rd _ => false

/-- The instructions of the wireless side: the history, estimate, reference, calibration and link (R32). -/
def wirelessSide : Instr → Bool
  | .sample _ | .dist _ | .calstart | .calpoll _ | .conn | .disc => true
  | .crc _ | .ingest _ _ | .poll _ | .proc _ | .mbReadHoldingRegisters _ _ _ _
  | .mbReadHoldingRegistersResponse _ _ | .mbExceptionIllegalDataAddress | .rd _ => false

/-- `s` and `t` hold the same wire side (R32). -/
structure SameWire (s t : State) : Prop where
  fb : t.fb = s.fb
  cur : t.cur = s.cur
  lastRx : t.lastRx = s.lastRx
  rb : t.rb = s.rb
  tx : t.tx = s.tx

/-- `s` and `t` hold the same wireless side: "everything else" (R32). -/
structure SameWireless (s t : State) : Prop where
  hist : t.hist = s.hist
  hlen : t.hlen = s.hlen
  est : t.est = s.est
  refSum : t.refSum = s.refSum
  refCnt : t.refCnt = s.refCnt
  mode : t.mode = s.mode
  calSum : t.calSum = s.calSum
  calCnt : t.calCnt = s.calCnt
  calTries : t.calTries = s.calTries
  calOk : t.calOk = s.calOk
  active : t.active = s.active

/-- Run operations one after the other, stopping at the first fault or refusal (R46, R240). -/
def runInstrs : List Instr → State → Host.Outcome State Fault Refusal
  | [], s => .next s
  | i :: is, s =>
      match exec i s with
      | .next t => runInstrs is t
      | .fault f => .fault f
      | .refused r => .refused r

/-- `n` steps, stopping at the first fault or refusal. -/
def runSteps : Nat → State → Host.Outcome State Fault Refusal
  | 0, s => .next s
  | n + 1, s =>
      match step s with
      | .next t => runSteps n t
      | .fault f => .fault f
      | .refused r => .refused r

/-- `t` is reached from reset with configuration `c` by steps over commands the host presents (R31, D22). -/
def Reachable (c : Config) (t : State) : Prop :=
  ∃ (cmds : List Command) (n : Nat), runSteps n { State.resetWith c with inbox := cmds } = .next t

/-- One arrival and the polls made before the next one: `INGEST now, bytes` then a POLL at each time of `polls` (R75,
R106). -/
structure Arrival where
  now : Word
  bytes : List Byte
  polls : List Word
  deriving DecidableEq, Repr

/-- The operations of an arrival. -/
def Arrival.instrs (a : Arrival) : List Instr := .ingest a.now a.bytes :: a.polls.map .poll

end Sys2Proof.Machine
end

