-- ==== Sys2Proof/Certificates/Slice0/Obligations.lean ====
section
/-! DEFINITION. The statements for the provers. Each docstring names the rules of spec/ it formalises. -/

open Sys2Proof Sys2Proof.Machine

/-! ## Steps, decoding and encoding -/

/-- A step starts the oldest command presented and runs exactly the decoded instruction on the state without that
command; it refuses a command the decoder rejects; with nothing presented nothing changes (R11, R46; the queue and the
idle step are the model's own, log entries 1 and 2). -/
def Obligations.StepRunsTheDecodedCommand : Prop :=
  (∀ (s : State) (c : Command) (rest : List Command) (i : Instr), s.inbox = c :: rest → decodeCommand c = .ok i →
      step s = exec i { s with inbox := rest }) ∧
  (∀ (s : State) (c : Command) (rest : List Command) (e : DecodeError), s.inbox = c :: rest →
      decodeCommand c = .rejected e → step s = .refused (.rejected e)) ∧
  (∀ s : State, s.inbox = [] → step s = .next s)

/-- R72 with the table of R70: exactly which commands are refused, and that a refused command is neither executed nor
a no-op. The clause on payloads above 65535 bytes is not R72's: it is R70's bound (D20), refused by name as the model's
choice (log entry 12, after U7). -/
def Obligations.RefusedCommandsAreThoseOfTheTable : Prop :=
  ∀ (c : Command) (rest : List Command) (s : State), s.inbox = c :: rest →
    ((∃ e, step s = .refused (.rejected e) ∧ decodeCommand c = .rejected e) ↔
      (c.op = 0x00 ∨ 0x0C ≤ c.op.toNat) ∨
      (c.op.toNat ∈ [0x01, 0x04, 0x07, 0x09, 0x0A] ∧ c.arg ≠ 0) ∨
      (c.op.toNat ∈ [0x05, 0x06, 0x08] ∧ 256 ≤ c.arg.toNat) ∨
      (c.op.toNat ∈ [0x03, 0x05, 0x06, 0x07, 0x08, 0x09, 0x0A, 0x0B] ∧ c.payload ≠ []) ∨
      (c.op.toNat ∈ [0x01, 0x02] ∧ 65535 < c.payload.length) ∨
      (c.op = 0x04 ∧ 64 < c.payload.length) ∨
      (c.op = 0x0B ∧ ¬(c.arg.toNat ∈ [0x00, 0x04, 0x08, 0x0C, 0x10, 0x14, 0x18, 0x1C] ∨
        (0x40 ≤ c.arg.toNat ∧ c.arg.toNat ≤ 0x7F) ∨ (0x80 ≤ c.arg.toNat ∧ c.arg.toNat ≤ 0x93))))

/-- Decoding the encoding of a well-formed instruction gives it back, every operand at every value (R61, R70, R71). -/
def Obligations.DecodeOfEncodeIsTheInstruction : Prop :=
  ∀ (i : Instr) (e : Encoded), i.wellFormed = true → encode i = some e → decode e = .ok i

/-- Whatever decodes is the encoding of the well-formed instruction it decodes to, so no two encoded inputs share an
instruction and no reserved encoding falls through to a neighbour (R61, R70). -/
def Obligations.EncodeOfDecodedIsTheInput : Prop :=
  ∀ (e : Encoded) (i : Instr), decode e = .ok i → i.wellFormed = true ∧ encode i = some e

/-- The two response formats read back as they were written, and answer the request they are responses to
(R62, R63). -/
def Obligations.ResponseFramesReadBack : Prop :=
  (∀ r : Response, r.wellFormed = true → parseResponse r.frame = .ok r) ∧
  (∀ (addr : Byte) (bytes : List Byte) (start count : Half), bytes.length = 2 * count.toNat → bytes.length ≤ 20 →
      decodeResponse start count (Response.data addr bytes).frame = .ok (.mbReadHoldingRegistersResponse start count)) ∧
  (∀ (addr : Byte) (start count : Half),
      decodeResponse start count (Response.illegalDataAddress addr).frame = .ok .mbExceptionIllegalDataAddress)

/-- A few encodings written out from the tables of R61 and R70, and the two responses of R62 and R63. -/
def Obligations.WrittenOutWordsDecode : Prop :=
  decodeCommand ⟨0x01, 0, [0x01, 0x03]⟩ = .ok (.crc [0x01, 0x03]) ∧
  decodeCommand ⟨0x02, 0x000003E8, [0x01, 0x03, 0x00]⟩ = .ok (.ingest 1000 [0x01, 0x03, 0x00]) ∧
  decodeCommand ⟨0x05, 0x000000C5, []⟩ = .ok (.sample (BitVec.ofInt 8 (-59))) ∧
  decodeCommand ⟨0x0B, 0x0000001C, []⟩ = .ok (.rd 0x1C) ∧
  decodeRequest [0x01, 0x03, 0x00, 0x09, 0x00, 0x02, 0x14, 0x09] = .ok (.mbReadHoldingRegisters 0x01 9 2 []) ∧
  decodeResponse 0 1 [0x01, 0x03, 0x02, 0x04, 0xD2, 0x3A, 0xD9] = .ok (.mbReadHoldingRegistersResponse 0 1) ∧
  decodeResponse 9 2 [0x01, 0x83, 0x02, 0xC0, 0xF1] = .ok .mbExceptionIllegalDataAddress

/-! ## CRC16 engine -/

/-- R92: CRC_INIT on the empty sequence, and the source's table step for each further byte. -/
def Obligations.ChecksumFollowsTheTableStep : Prop :=
  crc16 [] = 0xFFFF ∧
  ∀ (p : List Byte) (b : Byte),
    crc16 (p ++ [b]) = (crc16 p >>> 8) ^^^ crcTab (((crc16 p ^^^ b.setWidth 16) &&& 0x00FF).setWidth 8)

/-- R91: every entry of the listed table is the result of eight reflected shift steps on its index. -/
def Obligations.TableEntriesAreEightShifts : Prop :=
  ∀ i : Byte, crcTab i =
    (fun c : Half => if c.getLsbD 0 then (c >>> 1) ^^^ 0xA001 else c >>> 1)^[8] (i.setWidth 16)

/-- R96: the table form equals the bit-serial form on every byte sequence. -/
def Obligations.ChecksumEqualsBitSerialForm : Prop :=
  ∀ s : List Byte, crc16 s =
    s.foldl (fun c b => (fun c : Half => if c.getLsbD 0 then (c >>> 1) ^^^ 0xA001 else c >>> 1)^[8]
      (c ^^^ b.setWidth 16)) 0xFFFF

/-- R95: a sequence followed by its own checksum has checksum 0 and passes the processor's check. -/
def Obligations.ChecksumOfClosedFrameIsZero : Prop :=
  ∀ p : List Byte, crc16 (p ++ le16 (crc16 p)) = 0 ∧ crcMatches (p ++ le16 (crc16 p)) = true

/-- R97: changing one byte of a valid frame in any way, so in particular flipping any one bit, gives no response. R97
states the single bit, on the spec's general knowledge G2 (log entry 14); any other byte value follows from the table
and the step of R91 and R92. -/
def Obligations.CorruptedByteGivesNoResponse : Prop :=
  ∀ (s : State) (f : List Byte) (k : Nat) (b : Byte), 8 ≤ f.length → f.length ≤ 64 → f.getD 0 0 = s.cfg.slaveAddr →
    crcMatches f = true → k < f.length → b ≠ f.getD k 0 →
    exec (.proc (f.set k b)) s = .next { s with results := s.results ++ [.bytes []] }

/-- R93: CRC completes in every state with the checksum, low byte first, and changes nothing else. -/
def Obligations.CrcReturnsTheChecksum : Prop :=
  ∀ (p : List Byte) (s : State),
    exec (.crc p) s =
      .next { s with results := s.results ++ [.bytes [(crc16 p).extractLsb' 0 8, (crc16 p).extractLsb' 8 8]] }

/-! ## Frame assembler -/

/-- R101, R102: INGEST stores the first `min(len, 64 - CUR)` bytes at the cursor, moves the cursor, sets LAST_RX only
when a byte was stored, returns the number stored, and changes no other byte and no other state. -/
def Obligations.IngestStoresWhatFits : Prop :=
  ∀ (now : Word) (p : List Byte) (s : State), s.cur.toNat ≤ 64 → Memory.wf fbReset 64 s.fb = true →
    ∃ t, exec (.ingest now p) s = .next t ∧
      t.cur.toNat = s.cur.toNat + min p.length (64 - s.cur.toNat) ∧
      (∀ a, t.fbByte a =
        if s.cur.toNat ≤ a ∧ a < s.cur.toNat + min p.length (64 - s.cur.toNat) then p.getD (a - s.cur.toNat) 0
        else s.fbByte a) ∧
      t.lastRx = (if 0 < min p.length (64 - s.cur.toNat) then now else s.lastRx) ∧
      t.results = s.results ++ [.count (min p.length (64 - s.cur.toNat))] ∧
      t = { s with fb := t.fb, cur := t.cur, lastRx := t.lastRx, results := t.results }

/-- INGEST stops by name when the cursor is outside its legal range, which no state reachable from reset is; the model's
choice, log entry 5. -/
def Obligations.IngestAndPollStopOnlyOnIllegalCursor : Prop :=
  ∀ (now : Word) (p : List Byte) (s : State),
    (exec (.ingest now p) s = .fault .cursorOutOfRange ↔ 64 < s.cur.toNat) ∧
    (exec (.poll now) s = .fault .cursorOutOfRange ↔ 64 < s.cur.toNat ∧ 32 < (now - s.lastRx).toNat)

/-- R103, R104: POLL dispatches exactly when CUR is not 0 and more than 32 ms, modulo 2^32, have passed; it then hands
over the CUR bytes of the buffer, empties it, appends the response to TX and returns it; otherwise nothing changes. -/
def Obligations.PollDispatchesAfterSilence : Prop :=
  ∀ (now : Word) (s : State), s.cur.toNat ≤ 64 →
    exec (.poll now) s =
      if s.cur ≠ 0 ∧ ((now.toNat : Int) - s.lastRx.toNat) % 4294967296 > 32 then
        .next { s with
          cur := 0
          tx := s.tx ++ process s ((List.range s.cur.toNat).map s.fbByte)
          results := s.results ++ [.bytes (process s ((List.range s.cur.toNat).map s.fbByte))] }
      else .next { s with results := s.results ++ [.bytes []] }

/-- R106: bytes that arrive in non-empty chunks, with any number of POLLs between them at times within the silence
threshold, accumulate into one frame; no POLL dispatches before, and the first POLL beyond the threshold dispatches
exactly those bytes. -/
def Obligations.ChunksAssembleIntoOneFrame : Prop :=
  ∀ (s : State) (as : List Arrival) (last : Arrival) (pollTime : Word), s.WireInv → s.cur = 0 →
    (∀ a ∈ as ++ [last], a.bytes ≠ [] ∧ ∀ p ∈ a.polls, (p - a.now).toNat ≤ 32) →
    ((as ++ [last]).flatMap Arrival.bytes).length ≤ 64 → 32 < (pollTime - last.now).toNat →
    ∃ t u, runInstrs ((as ++ [last]).flatMap Arrival.instrs) s = .next t ∧ t.tx = s.tx ∧
      t.frame = (as ++ [last]).flatMap Arrival.bytes ∧
      exec (.poll pollTime) t = .next u ∧ u.cur = 0 ∧
      u.tx = s.tx ++ process s ((as ++ [last]).flatMap Arrival.bytes)

/-! ## Modbus processor -/

/-- R121 to R124, R127 to R130, R133: PROC completes on every frame of at most 64 bytes with the response the outcome
table gives, and changes no state. -/
def Obligations.ProcAnswersByTheOutcomeTable : Prop :=
  ∀ (s : State) (f : List Byte), f.length ≤ 64 →
    ∃ r, exec (.proc f) s = .next { s with results := s.results ++ [.bytes r] } ∧
      (f.length < 8 → r = []) ∧
      (f.getD 0 0 ≠ s.cfg.slaveAddr → r = []) ∧
      (f.drop (f.length - 2) ≠ le16 (crc16 (f.take (f.length - 2))) → r = []) ∧
      (f.getD 1 0 ≠ 0x03 → r = []) ∧
      (8 ≤ f.length → f.getD 0 0 = s.cfg.slaveAddr →
        f.drop (f.length - 2) = le16 (crc16 (f.take (f.length - 2))) → f.getD 1 0 = 0x03 →
        let startOff := 2 * (256 * (f.getD 2 0).toNat + (f.getD 3 0).toNat)
        let countOff := 2 * (256 * (f.getD 4 0).toNat + (f.getD 5 0).toNat)
        let body := if 20 < startOff + countOff then [s.cfg.slaveAddr, 0x83, 0x02]
          else [s.cfg.slaveAddr, 0x03, BitVec.ofNat 8 countOff] ++
            (List.range countOff).map (fun i => s.rbByte (startOff + i))
        r = body ++ [(crc16 body).extractLsb' 0 8, (crc16 body).extractLsb' 8 8])

/-- R72: a frame longer than 64 bytes is refused. -/
def Obligations.ProcRefusesOverlongFrames : Prop :=
  ∀ (s : State) (f : List Byte), 64 < f.length → exec (.proc f) s = .refused (.rejected .frameTooLong)

/-- R120: a response is none or 5 to 25 bytes, so a response is never empty. -/
def Obligations.ResponsesAreFiveToTwentyFiveBytes : Prop :=
  ∀ (s : State) (f : List Byte), process s f = [] ∨ (5 ≤ (process s f).length ∧ (process s f).length ≤ 25)

/-- R131: the response depends on the frame, SLAVE_ADDR and the register bank alone: two states that agree on those
give the same response, whatever earlier frames, times and samples made of the rest. -/
def Obligations.ResponseDependsOnFrameAddressAndBank : Prop :=
  ∀ (s t : State) (f : List Byte), s.cfg.slaveAddr = t.cfg.slaveAddr → (∀ i < 20, s.rbByte i = t.rbByte i) →
    process s f = process t f

/-- R127: READ HOLDING REGISTERS addressed to the block completes with the exception response exactly when the exact
end offset is above 20, else with the success response; nothing wraps. Other addresses get no response (R123). -/
def Obligations.ReadHoldingRegistersServesOrExcepts : Prop :=
  ∀ (s : State) (addr : Byte) (start count : Half) (extra : List Byte), 8 + extra.length ≤ 64 →
    exec (.mbReadHoldingRegisters addr start count extra) s =
      .next { s with
        results := s.results ++ [.bytes
          (if addr = s.cfg.slaveAddr then
            if 20 < 2 * start.toNat + 2 * count.toNat then raiseIllegalDataAddress s 0x03
            else successResponse s start count
          else [])] }

/-- The wire instruction is what PROC does with the frame of R61 that encodes it: the same outcome in every state, for
every address, start, count and extra bytes. -/
def Obligations.WireRequestIsProcOfItsFrame : Prop :=
  ∀ (s : State) (addr : Byte) (start count : Half) (extra : List Byte), 8 + extra.length ≤ 64 →
    exec (.mbReadHoldingRegisters addr start count extra) s = exec (.proc (requestFrame addr start count extra)) s

/-- R128: the success response completes with the address, 0x03, the byte count, the slice of RB in order and the CRC,
for every range inside the bank; outside it MemRead is undefined and the model refuses (R6). -/
def Obligations.SuccessResponseHoldsTheSlice : Prop :=
  ∀ (s : State) (start count : Half),
    let body := [s.cfg.slaveAddr, 0x03, BitVec.ofNat 8 (2 * count.toNat)] ++
      (List.range (2 * count.toNat)).map (fun i => s.rbByte (2 * start.toNat + i))
    (2 * start.toNat + 2 * count.toNat ≤ 20 →
      exec (.mbReadHoldingRegistersResponse start count) s =
        .next { s with
          results := s.results ++ [.bytes (body ++ [(crc16 body).extractLsb' 0 8, (crc16 body).extractLsb' 8 8])] }) ∧
    (20 < 2 * start.toNat + 2 * count.toNat →
      exec (.mbReadHoldingRegistersResponse start count) s = .refused .bankRangeUndefined)

/-- R129: the exception response completes in every state, records nothing, and for SLAVE_ADDR = 1 is
`01 83 02 C0 F1`. -/
def Obligations.ExceptionResponseIsBuiltAndNothingRecorded : Prop :=
  ∀ s : State,
    let body := [s.cfg.slaveAddr, 0x83, 0x02]
    exec .mbExceptionIllegalDataAddress s =
      .next { s with
        results := s.results ++ [.bytes (body ++ [(crc16 body).extractLsb' 0 8, (crc16 body).extractLsb' 8 8])] } ∧
    (s.cfg.slaveAddr = 0x01 → raiseIllegalDataAddress s 0x03 = [0x01, 0x83, 0x02, 0xC0, 0xF1])

/-! ## RSSI filter and distance -/

/-- R153: an invalid reading gives -100, and a valid one the integer nearest to `100 * 10^x` over the reals, for every
reference and every positive exponent. -/
def Obligations.RawDistanceIsTheNearestInteger : Prop :=
  ∀ (c : Config) (refSum : Int) (refCnt : Nat) (rssi : Int), 0 < c.nNum → 0 < refCnt →
    (0 ≤ rssi → rawDistance c refSum refCnt rssi = -100) ∧
    (rssi < 0 →
      |(rawDistance c refSum refCnt rssi : ℝ) -
        100 * (10 : ℝ) ^ ((((refSum - rssi * refCnt) * c.nDen : Int) : ℝ) / ((10 * c.nNum * refCnt : Nat) : ℝ))|
        < 1 / 2)

/-- R154: the raw distance of a valid reading is the least `D >= 0` of the inequality between natural numbers. -/
def Obligations.RawDistanceIsLeastOfTheInequality : Prop :=
  ∀ (c : Config) (refSum : Int) (refCnt : Nat) (rssi : Int), 0 < c.nNum → 0 < refCnt → rssi < 0 →
    let p := (refSum - rssi * refCnt) * c.nDen
    let q := 10 * c.nNum * refCnt
    ∃ d : Nat, rawDistance c refSum refCnt rssi = d ∧
      IsLeast { d : Nat | 200 ^ q * 10 ^ (max p 0).toNat < (2 * d + 1) ^ q * 10 ^ (max (-p) 0).toNat } d

/-- R161: the whole table for the reset reference and N_EXP = 5/2, from -128 up to -1. -/
def Obligations.RawDistanceTableForResetReference : Prop :=
  ∀ c : Config, c.DefaultExponent →
  (List.range 128).map (fun i : Nat => rawDistance c (-59) 1 ((i : Int) - 128)) =
    [57544, 52481, 47863, 43652, 39811, 36308, 33113, 30200, 27542, 25119, 22909, 20893, 19055, 17378, 15849, 14454,
     13183, 12023, 10965, 10000, 9120, 8318, 7586, 6918, 6310, 5754, 5248, 4786, 4365, 3981, 3631, 3311] ++
    [3020, 2754, 2512, 2291, 2089, 1905, 1738, 1585, 1445, 1318, 1202, 1096, 1000, 912, 832, 759,
     692, 631, 575, 525, 479, 437, 398, 363, 331, 302, 275, 251, 229, 209, 191, 174] ++
    [158, 145, 132, 120, 110, 100, 91, 83, 76, 69, 63, 58, 52, 48, 44, 40,
     36, 33, 30, 28, 25, 23, 21, 19, 17, 16, 14, 13, 12, 11, 10, 9] ++
    [8, 8, 7, 6, 6, 5, 5, 4, 4, 4, 3, 3, 3, 3, 2, 2,
     2, 2, 2, 1, 1, 1, 1, 1, 1, 1, 1, 1, 1, 1, 1, 0]

/-- R159, first sentence: for valid readings the raw distance is non-increasing in the reading and non-decreasing in the
reference, compared as the rational REF_SUM / REF_CNT. -/
def Obligations.RawDistanceIsMonotone : Prop :=
  ∀ (c : Config) (sum1 sum2 : Int) (cnt1 cnt2 : Nat) (r1 r2 : Int), 0 < c.nNum → 0 < cnt1 → 0 < cnt2 →
    r1 < 0 → r2 < 0 → r1 ≤ r2 → sum2 * cnt1 ≤ sum1 * cnt2 →
    rawDistance c sum2 cnt2 r2 ≤ rawDistance c sum1 cnt1 r1

/-- R153, R162: for a legal reference and a valid 8-bit reading under N_EXP = 5/2 the raw distance is 0 to
12 022 644, so it fits an i32. -/
def Obligations.RawDistanceFitsItsRange : Prop :=
  ∀ (s : State) (r : Byte), s.ReferenceInv → s.cfg.DefaultExponent → r.toInt < 0 →
    0 ≤ s.raw r.toInt ∧ s.raw r.toInt ≤ 12022644

/-- R156: the median of a non-empty history is the element at index `m div 2` of its ascending sort. -/
def Obligations.MedianIsTheMiddleOfTheSort : Prop :=
  ∀ h : List Int, h ≠ [] →
    ∃ l : List Int, l.Perm h ∧ l.Pairwise (· ≤ ·) ∧ l[h.length / 2]? = some (median h)

/-- R157: smoothing rounds `(raw + 4 * prev) / 5` to the nearest integer, for negative numerators too. -/
def Obligations.SmoothingRoundsToNearest : Prop :=
  ∀ prev raw : Int, 2 * |5 * smooth prev raw - (raw + 4 * prev)| < 5

/-- R158 and R159: smoothing stays between its arguments, and leaves the estimate alone exactly within 2 cm. -/
def Obligations.SmoothingFixedPointsAndBounds : Prop :=
  ∀ e raw : Int, (smooth e raw = e ↔ |raw - e| ≤ 2) ∧ min e raw ≤ smooth e raw ∧ smooth e raw ≤ max e raw

/-- R158 and 90_conflicts C8: fed one raw distance repeatedly, the estimate comes within 2 cm of it, after at most as many
steps as the first gap has centimetres, and stays there. -/
def Obligations.SmoothingConvergesWithinTwo : Prop :=
  ∀ (raw e : Int) (n : Nat), |e - raw| ≤ n → |(fun x => smooth x raw)^[n] e - raw| ≤ 2

/-- R160. In CAL mode SAMPLE returns the estimate and changes no state. In NORMAL mode it completes; the history is the
last five of the old samples and the new one, the cells above it kept; the estimate is the raw distance of the median,
adopted when EST < 0 and smoothed otherwise; the result is the new estimate; nothing else changes. An estimate that does
not fit an i32 is a free value (log entry 6). -/
def Obligations.SampleUpdatesHistoryAndEstimate : Prop :=
  ∀ (r : Byte) (s : State),
    (s.mode = .cal → exec (.sample r) s = .next { s with results := s.results ++ [.i32 s.est] }) ∧
    (s.mode = .normal → s.hlen.toNat ≤ 5 →
      let old := s.hist.toList.take s.hlen.toNat
      let h := (old ++ [r]).drop (old.length + 1 - 5)
      let raw := rawDistance s.cfg s.refSum.toInt s.refCnt.toNat (median (h.map BitVec.toInt))
      let est := if s.est.toInt < 0 then raw else smooth s.est.toInt raw
      ∃ t, exec (.sample r) s = .next t ∧ t.hlen.toNat = h.length ∧
        (∀ i : Fin 5, t.hist[i] = h.getD i s.hist[i]) ∧
        (-2147483648 ≤ est → est ≤ 2147483647 → t.est.toInt = est) ∧
        t = { s with hist := t.hist, hlen := t.hlen, est := t.est, results := s.results ++ [.i32 t.est] })

/-- SAMPLE stops by name exactly in NORMAL mode with a history length outside its legal range, which no state reachable
from reset has; the model's choice, log entry 5. -/
def Obligations.SampleStopsOnlyOnIllegalHistoryLength : Prop :=
  ∀ (r : Byte) (s : State),
    exec (.sample r) s = .fault .historyOutOfRange ↔ s.mode = .normal ∧ 5 < s.hlen.toNat

/-- R155: DIST completes in both modes, returns the raw distance of its reading as an i32, and changes nothing. A
distance that does not fit an i32 is a free value (log entry 6). -/
def Obligations.DistReturnsTheRawDistance : Prop :=
  ∀ (r : Byte) (s : State),
    ∃ v : Word, exec (.dist r) s = .next { s with results := s.results ++ [.i32 v] } ∧
      (-2147483648 ≤ s.raw r.toInt → s.raw r.toInt ≤ 2147483647 → v.toInt = s.raw r.toInt)

/-- R159, last sentence: with a legal reference and N_EXP = 5/2, a SAMPLE whose median is negative leaves the estimate
non-negative. -/
def Obligations.EstimateStaysValidWhileMediansAreNegative : Prop :=
  ∀ (r : Byte) (s t : State), s.Inv → s.cfg.DefaultExponent → s.mode = .normal →
    median ((s.appendSample r).map BitVec.toInt) < 0 → exec (.sample r) s = .next t → 0 ≤ t.est.toInt

/-! ## Calibration and link -/

/-- R181: CALSTART completes; from NORMAL it enters CAL with the counters and CAL_OK cleared, in CAL it changes
nothing. -/
def Obligations.CalstartEntersCalibrationOnce : Prop :=
  ∀ s : State,
    (s.mode = .normal →
      exec .calstart s =
        .next { s with
          mode := .cal, calSum := 0, calCnt := 0, calTries := 0, calOk := false
          results := s.results ++ [.bytes []] }) ∧
    (s.mode = .cal → exec .calstart s = .next { s with results := s.results ++ [.bytes []] })

/-- R182, R183. In NORMAL mode CALPOLL is IGNORED and changes nothing. In CAL mode, from a state that meets the
counters' invariant, it completes with the counters advanced; it ends the calibration exactly at ten valid readings or
twenty polls, and only then, with at least one valid reading, writes the reference; nothing else changes. -/
def Obligations.CalpollCountsAndEnds : Prop :=
  ∀ (r : Byte) (s : State),
    (s.mode = .normal → exec (.calpoll r) s = .next { s with results := s.results ++ [.status .ignored] }) ∧
    (s.CalibrationInv → s.mode = .cal →
      let tries := s.calTries.toNat + 1
      let sum : Int := if r.toInt < 0 then s.calSum.toInt + r.toInt else s.calSum.toInt
      let cnt := if r.toInt < 0 then s.calCnt.toNat + 1 else s.calCnt.toNat
      ∃ t, exec (.calpoll r) s = .next t ∧
        t.calTries.toNat = tries ∧ t.calSum.toInt = sum ∧ t.calCnt.toNat = cnt ∧
        (cnt = 10 ∨ tries = 20 → 1 ≤ cnt →
          t.mode = .normal ∧ t.refSum.toInt = sum ∧ t.refCnt.toNat = cnt ∧ t.calOk = true ∧
            t.results = s.results ++ [.status .doneOk]) ∧
        (cnt = 10 ∨ tries = 20 → cnt = 0 →
          t.mode = .normal ∧ t.refSum = s.refSum ∧ t.refCnt = s.refCnt ∧ t.calOk = false ∧
            t.results = s.results ++ [.status .doneFail]) ∧
        (¬(cnt = 10 ∨ tries = 20) →
          t.mode = .cal ∧ t.refSum = s.refSum ∧ t.refCnt = s.refCnt ∧ t.calOk = s.calOk ∧
            t.results = s.results ++ [.status .busy]) ∧
        t = { s with
          mode := t.mode, calSum := t.calSum, calCnt := t.calCnt, calTries := t.calTries, calOk := t.calOk
          refSum := t.refSum, refCnt := t.refCnt, results := t.results })

/-- R185: whatever the readings, a calibration is over after at most twenty CALPOLLs. -/
def Obligations.CalibrationEndsWithinTwentyPolls : Prop :=
  ∀ (s : State) (rs : List Byte), s.CalibrationInv → rs.length = 20 →
    ∃ t, runInstrs (.calstart :: rs.map .calpoll) s = .next t ∧ t.mode = .normal

/-- R187, R188: CONN and DISC complete in every state; CONN sets ACTIVE, DISC clears it, and DISC clears HLEN and EST
exactly when CLR_ON_DISC = 1; nothing else changes. -/
def Obligations.ConnAndDiscSetTheActiveFlag : Prop :=
  ∀ s : State,
    exec .conn s = .next { s with active := true, results := s.results ++ [.bytes []] } ∧
    (s.cfg.clrOnDisc = false →
      exec .disc s = .next { s with active := false, results := s.results ++ [.bytes []] }) ∧
    (s.cfg.clrOnDisc = true →
      ∃ t, exec .disc s = .next t ∧ t.est.toInt = -100 ∧
        t = { s with active := false, hlen := 0, est := t.est, results := s.results ++ [.bytes []] })

/-! ## The register map and reset -/

/-- R30: RD completes at every mapped address with the register's value, field by field, and has no other effect; every
other address is refused. -/
def Obligations.RdReturnsTheMappedRegister : Prop :=
  ∀ s : State,
    (∀ a : Word, rdMapped a = true →
      exec (.rd a) s = .next { s with results := s.results ++ [.u32 (s.register a.toNat)] }) ∧
    (∀ a : Word, rdMapped a = false → exec (.rd a) s = .refused (.rejected (.reservedAddress a))) ∧
    (∀ a : Word, rdMapped a = true ↔
      a.toNat ∈ [0x00, 0x04, 0x08, 0x0C, 0x10, 0x14, 0x18, 0x1C] ∨
        (∃ i < 64, a.toNat = 0x40 + i) ∨ (∃ i < 20, a.toNat = 0x80 + i)) ∧
    ((s.register 0x00).getLsbD 0 = s.active ∧ (s.register 0x00).getLsbD 1 = decide (s.mode = .cal) ∧
      (s.register 0x00).getLsbD 2 = s.calOk ∧ (s.register 0x00).getLsbD 3 = decide (0 ≤ s.est.toInt) ∧
      (s.register 0x00).extractLsb' 4 7 = s.cur ∧ (s.register 0x00).extractLsb' 11 3 = s.hlen ∧
      (s.register 0x00).extractLsb' 14 18 = 0) ∧
    s.register 0x04 = s.lastRx ∧ s.register 0x08 = s.est ∧
    ((s.register 0x0C).extractLsb' 0 12 = s.refSum ∧ (s.register 0x0C).extractLsb' 12 4 = s.refCnt ∧
      (s.register 0x0C).extractLsb' 16 16 = 0) ∧
    ((s.register 0x10).extractLsb' 0 12 = s.calSum ∧ (s.register 0x10).extractLsb' 12 4 = s.calCnt ∧
      (s.register 0x10).extractLsb' 16 5 = s.calTries ∧ (s.register 0x10).extractLsb' 21 11 = 0) ∧
    (∀ i : Fin 4, (s.register 0x14).extractLsb' (8 * i) 8 = s.hist[i.val]) ∧
    ((s.register 0x18).extractLsb' 0 8 = s.hist[4] ∧ (s.register 0x18).extractLsb' 8 24 = 0) ∧
    ((s.register 0x1C).extractLsb' 0 8 = s.cfg.slaveAddr ∧ (s.register 0x1C).getLsbD 8 = s.cfg.clrOnDisc ∧
      (s.register 0x1C).extractLsb' 9 23 = 0) ∧
    (∀ i < 64, s.register (0x40 + i) = (s.fbByte i).setWidth 32) ∧
    (∀ i < 20, s.register (0x80 + i) = (s.rbByte i).setWidth 32)

/-- R33, R230: what every element holds after reset, for every configuration, and the stated defaults of R5. -/
def Obligations.ResetValuesAreThoseOfTheTable : Prop :=
  (∀ c : Config, let s := State.resetWith c
    (∀ i < 64, s.fbByte i = 0x00) ∧ s.cur = 0 ∧ s.lastRx = 0 ∧
    s.rbByte 0 = 0x04 ∧ s.rbByte 1 = 0xD2 ∧
    s.rbByte 2 = c.reg1Init.extractLsb' 8 8 ∧ s.rbByte 3 = c.reg1Init.extractLsb' 0 8 ∧
    (∀ i, 4 ≤ i → i < 20 → s.rbByte i = 0x00) ∧
    s.cfg = c ∧ (∀ i : Fin 5, s.hist[i] = 0) ∧ s.hlen = 0 ∧ s.est.toInt = -100 ∧
    s.refSum.toInt = c.refInit.toInt ∧ s.refCnt = 1 ∧ s.mode = .normal ∧
    s.calSum = 0 ∧ s.calCnt = 0 ∧ s.calTries = 0 ∧ s.calOk = false ∧ s.active = false ∧ s.tx = []) ∧
  (State.reset.cfg.slaveAddr = 1 ∧ State.reset.cfg.clrOnDisc = false ∧ State.reset.cfg.refInit.toInt = -59 ∧
    State.reset.cfg.nNum = 5 ∧ State.reset.cfg.nDen = 2)

/-! ## The whole machine -/

/-- Every reset state with a legal configuration meets the invariant of R31. -/
def Obligations.ResetMeetsTheBounds : Prop :=
  ∀ c : Config, c.WellFormed → (State.resetWith c).Inv

/-- A step from any state that meets the invariant of R31 gives a state that meets it, whatever command is run. -/
def Obligations.StepKeepsTheBounds : Prop :=
  ∀ s t : State, s.Inv → step s = .next t → t.Inv

/-- R31: every state reached from reset by any commands meets the stated bounds; the upper bound of EST is that of
N_EXP = 5/2. -/
def Obligations.ReachableStatesMeetTheBounds : Prop :=
  ∀ (c : Config) (t : State), c.WellFormed → Reachable c t → t.Inv

/-- R44: nothing writes the register bank, so RB reads as its reset image in every state reached from reset. -/
def Obligations.RegisterBankStaysAtItsResetImage : Prop :=
  (∀ (i : Instr) (s t : State), exec i s = .next t → t.rb = s.rb ∧ ∀ a, t.rbByte a = s.rbByte a) ∧
  (∀ (c : Config) (t : State), Reachable c t → ∀ i < 20, t.rbByte i = rbReset c i)

/-- R200: from a state that meets the invariant of R31 no operation and no step faults. -/
def Obligations.NoReachableOperationFaults : Prop :=
  ∀ s : State, s.Inv → NoFault (step s) ∧ ∀ i : Instr, NoFault (exec i s)

/-- R200: from a state that meets the invariant of R31 every well-formed instruction completes. -/
def Obligations.EveryWellFormedOperationCompletes : Prop :=
  ∀ (i : Instr) (s : State), s.Inv → i.wellFormed = true → ∃ t, exec i s = .next t

/-- D2, D22, R28: every operation returns exactly one result, and only a POLL sends anything: what it returns. -/
def Obligations.OneResultEachAndOnlyPollTransmits : Prop :=
  ∀ (i : Instr) (s t : State), exec i s = .next t →
    ∃ r, t.results = s.results ++ [r] ∧ t.inbox = s.inbox ∧
      (t.tx = s.tx ∨ ∃ now bs, i = .poll now ∧ r = .bytes bs ∧ t.tx = s.tx ++ bs)

/-- R32: which operations write each state element, and that the configuration is never written. -/
def Obligations.EachElementHasItsWriters : Prop :=
  ∀ (i : Instr) (s t : State), exec i s = .next t →
    t.cfg = s.cfg ∧ t.rb = s.rb ∧
    (t.fb ≠ s.fb ∨ t.lastRx ≠ s.lastRx → ∃ now p, i = .ingest now p) ∧
    (t.cur ≠ s.cur → (∃ now p, i = .ingest now p) ∨ ∃ now, i = .poll now) ∧
    (t.hist ≠ s.hist → ∃ r, i = .sample r) ∧
    (t.hlen ≠ s.hlen ∨ t.est ≠ s.est → (∃ r, i = .sample r) ∨ (i = .disc ∧ s.cfg.clrOnDisc = true)) ∧
    (t.refSum ≠ s.refSum ∨ t.refCnt ≠ s.refCnt → ∃ r, i = .calpoll r ∧ s.mode = .cal ∧ t.mode = .normal) ∧
    (t.mode ≠ s.mode ∨ t.calSum ≠ s.calSum ∨ t.calCnt ≠ s.calCnt ∨ t.calTries ≠ s.calTries ∨ t.calOk ≠ s.calOk →
      i = .calstart ∨ ∃ r, i = .calpoll r) ∧
    (t.active ≠ s.active → i = .conn ∨ i = .disc)

/-- R29, R208: CAL mode is entered only by CALSTART and left only by the CALPOLL that makes CAL_CNT = 10 or
CAL_TRIES = 20. -/
def Obligations.ModeChangesOnlyByCalibration : Prop :=
  ∀ (i : Instr) (s t : State), exec i s = .next t →
    (s.mode = .normal → t.mode = .cal → i = .calstart) ∧
    (s.mode = .cal → t.mode = .normal →
      (∃ r, i = .calpoll r) ∧ (t.calCnt.toNat = 10 ∨ t.calTries.toNat = 20))

/-- R184: the mode changes only what SAMPLE, CALSTART and CALPOLL do. CRC, INGEST, POLL, PROC, DIST, CONN, DISC and the
wire formats give the same result and the same state in either mode, and RD of every register but STATUS, which shows
the mode, the same value. -/
def Obligations.ModeLeavesTheOtherOperationsAlone : Prop :=
  ∀ (i : Instr) (s t : State) (m : Mode),
    (∀ r, i ≠ .sample r) → i ≠ .calstart → (∀ r, i ≠ .calpoll r) → i ≠ .rd 0x00 →
    exec i s = .next t → exec i { s with mode := m } = .next { t with mode := m }

/-- R108, R231: only a POLL that dispatches lowers the cursor, and then to 0; only a DISC with CLR_ON_DISC = 1 lowers
the history's length, and then to 0. -/
def Obligations.OnlyDispatchAndDisconnectEmptyTheBuffers : Prop :=
  ∀ (i : Instr) (s t : State), s.Inv → exec i s = .next t →
    (t.cur.toNat < s.cur.toNat →
      t.cur = 0 ∧ ∃ now, i = .poll now ∧ 32 < (now - s.lastRx).toNat) ∧
    (t.hlen.toNat < s.hlen.toNat → t.hlen = 0 ∧ i = .disc ∧ s.cfg.clrOnDisc = true)

/-- R32: a wire-side operation writes no wireless-side state, and a wireless-side operation no wire-side state, so every
byte of FB and RB reads as before. -/
def Obligations.SidesDoNotWriteEachOther : Prop :=
  ∀ (i : Instr) (s t : State), exec i s = .next t →
    (wireSide i = true → SameWireless s t) ∧
    (wirelessSide i = true → SameWire s t ∧ ∀ a, t.fbByte a = s.fbByte a ∧ t.rbByte a = s.rbByte a)

/-- R32, R131: what an operation of one side does depends on that side's state alone: two states that agree there and in
the configuration, and differ at will elsewhere, give the same result and the same state of that side. -/
def Obligations.SidesDoNotReadEachOther : Prop :=
  ∀ (i : Instr) (s1 s2 t1 : State), s1.cfg = s2.cfg → exec i s1 = .next t1 →
    (wireSide i = true → SameWire s1 s2 →
      ∃ t2 r, exec i s2 = .next t2 ∧ SameWire t1 t2 ∧
        t1.results = s1.results ++ [r] ∧ t2.results = s2.results ++ [r]) ∧
    (wirelessSide i = true → SameWireless s1 s2 →
      ∃ t2 r, exec i s2 = .next t2 ∧ SameWireless t1 t2 ∧
        t1.results = s1.results ++ [r] ∧ t2.results = s2.results ++ [r])

/-- R46: a wire-side and a wireless-side operation commute: either order gives the same state and the same two results;
only the order in which the results stand differs. -/
def Obligations.WireAndWirelessOperationsCommute : Prop :=
  ∀ (i j : Instr) (s t u : State), wireSide i = true → wirelessSide j = true →
    exec i s = .next t → exec j t = .next u →
    ∃ t' u' ri rj, exec j s = .next t' ∧ exec i t' = .next u' ∧
      u.results = s.results ++ [ri, rj] ∧ u'.results = s.results ++ [rj, ri] ∧
      u = { u' with results := u.results }
end

