-- ==== Sys2Proof/Laws/Memory.lean ====
section
/-! SUPPORT. The laws of a byte storage: reading after writing, that every operation keeps the canonical form, and that
in canonical form equal storages are equal data. -/

namespace Sys2Proof.Machine

theorem Memory.wfFrom_mono {dflt : Nat → Byte} {size lo lo' : Nat} {m : Memory} (hlo : lo' ≤ lo)
    (h : Memory.wfFrom dflt size lo m = true) : Memory.wfFrom dflt size lo' m = true := by
  cases m with
  | nil => rfl
  | cons c m =>
    obtain ⟨b, v⟩ := c
    simp only [Memory.wfFrom, Bool.and_eq_true, decide_eq_true_eq] at h ⊢
    exact ⟨⟨⟨by omega, h.1.1.2⟩, h.1.2⟩, h.2⟩

/-- Below its first listed address a storage reads as unlisted. -/
theorem Memory.read_below {dflt : Nat → Byte} {size lo a : Nat} {m : Memory}
    (h : Memory.wfFrom dflt size lo m = true) (ha : a < lo) : Memory.read dflt m a = dflt a := by
  induction m generalizing lo with
  | nil => rfl
  | cons c m ih =>
    obtain ⟨b, v⟩ := c
    simp only [Memory.wfFrom, Bool.and_eq_true, decide_eq_true_eq] at h
    have hb : a ≠ b := by omega
    simp only [Memory.read, hb, if_false]
    exact ih h.2 (by omega)

theorem Memory.read_write_from {dflt : Nat → Byte} {size lo : Nat} {m : Memory}
    (h : Memory.wfFrom dflt size lo m = true) (a b : Nat) (v : Byte) :
    Memory.read dflt (Memory.write dflt m a v) b = if b = a then v else Memory.read dflt m b := by
  induction m generalizing lo with
  | nil =>
    simp only [Memory.write]
    split
    · next hv => split <;> simp_all [Memory.read]
    · simp [Memory.read]
  | cons c m ih =>
    obtain ⟨k, w⟩ := c
    simp only [Memory.wfFrom, Bool.and_eq_true, decide_eq_true_eq] at h
    have hbelow := Memory.read_below (a := a) h.2
    have hstep := ih h.2
    simp only [Memory.write]
    split
    · next hk =>
      have hak : a ≠ k := by omega
      split
      · next hv =>
        split
        · next hb => simp [Memory.read, hb, hak, hbelow (by omega), hv]
        · rfl
      · simp [Memory.read]
    · split
      · next hk =>
        subst hk
        split
        · next hv =>
          split
          · next hb => rw [hb, hbelow (by omega), hv]
          · next hb => simp [Memory.read, hb]
        · simp only [Memory.read]
          split <;> simp_all
      · next hlt hne =>
        simp only [Memory.read, hstep]
        split
        · next hb => rw [if_neg (by omega)]
        · rfl

/-- A read after a write: the written byte at its own address, the old byte everywhere else. -/
theorem Memory.read_write {dflt : Nat → Byte} {size : Nat} {m : Memory} (h : Memory.wf dflt size m = true)
    (a b : Nat) (v : Byte) :
    Memory.read dflt (Memory.write dflt m a v) b = if b = a then v else Memory.read dflt m b :=
  Memory.read_write_from h a b v

theorem Memory.wfFrom_write {dflt : Nat → Byte} {size lo a : Nat} {m : Memory}
    (h : Memory.wfFrom dflt size lo m = true) (hlo : lo ≤ a) (ha : a < size) (v : Byte) :
    Memory.wfFrom dflt size lo (Memory.write dflt m a v) = true := by
  induction m generalizing lo with
  | nil =>
    simp only [Memory.write]
    split
    · rfl
    · next hv => simp [Memory.wfFrom, hlo, ha, hv]
  | cons c m ih =>
    obtain ⟨k, w⟩ := c
    have h0 := h
    simp only [Memory.wfFrom, Bool.and_eq_true, decide_eq_true_eq] at h
    simp only [Memory.write]
    split
    · next hk =>
      split
      · exact h0
      · next hv =>
        simp only [Memory.wfFrom, Bool.and_eq_true, decide_eq_true_eq]
        exact ⟨⟨⟨hlo, ha⟩, hv⟩, ⟨⟨by omega, h.1.1.2⟩, h.1.2⟩, h.2⟩
    · split
      · next hk =>
        subst hk
        split
        · exact Memory.wfFrom_mono (by omega) h.2
        · next hv =>
          simp only [Memory.wfFrom, Bool.and_eq_true, decide_eq_true_eq]
          exact ⟨⟨⟨hlo, ha⟩, hv⟩, h.2⟩
      · next hlt hne =>
        simp only [Memory.wfFrom, Bool.and_eq_true, decide_eq_true_eq]
        exact ⟨h.1, ih h.2 (by omega)⟩

/-- A write inside the storage keeps the canonical form. -/
theorem Memory.wf_write {dflt : Nat → Byte} {size a : Nat} {m : Memory} (h : Memory.wf dflt size m = true)
    (ha : a < size) (v : Byte) : Memory.wf dflt size (Memory.write dflt m a v) = true :=
  Memory.wfFrom_write h (Nat.zero_le a) ha v

/-- Consecutive writes inside the storage keep the canonical form. -/
theorem Memory.wf_writeList {dflt : Nat → Byte} {size : Nat} (vs : List Byte) {a : Nat} {m : Memory}
    (h : Memory.wf dflt size m = true) (ha : a + vs.length ≤ size) :
    Memory.wf dflt size (Memory.writeList dflt m a vs) = true := by
  induction vs generalizing a m with
  | nil => exact h
  | cons v vs ih =>
    simp only [List.length_cons] at ha
    exact ih (Memory.wf_write h (by omega) v) (by omega)

/-- What every address reads as after consecutive writes. -/
theorem Memory.read_writeList {dflt : Nat → Byte} {size : Nat} (vs : List Byte) {a : Nat} {m : Memory}
    (h : Memory.wf dflt size m = true) (ha : a + vs.length ≤ size) (b : Nat) :
    Memory.read dflt (Memory.writeList dflt m a vs) b =
      if a ≤ b ∧ b < a + vs.length then vs.getD (b - a) 0 else Memory.read dflt m b := by
  induction vs generalizing a m with
  | nil =>
    simp only [List.length_nil, Memory.writeList]
    rw [if_neg (by omega)]
  | cons v vs ih =>
    simp only [List.length_cons] at ha
    simp only [Memory.writeList, List.length_cons]
    rw [ih (Memory.wf_write h (by omega) v) (by omega), Memory.read_write h]
    by_cases h1 : b = a
    · subst h1
      simp
    · by_cases h2 : a + 1 ≤ b ∧ b < a + 1 + vs.length
      · rw [if_pos h2, if_pos (by omega), show b - a = (b - (a + 1)) + 1 by omega]
        simp
      · rw [if_neg h2, if_neg h1, if_neg (by omega)]

theorem Memory.ext_from {dflt : Nat → Byte} {size lo : Nat} {m n : Memory}
    (hm : Memory.wfFrom dflt size lo m = true) (hn : Memory.wfFrom dflt size lo n = true)
    (h : ∀ a, Memory.read dflt m a = Memory.read dflt n a) : m = n := by
  induction m generalizing lo n with
  | nil =>
    cases n with
    | nil => rfl
    | cons d n =>
      obtain ⟨k, w⟩ := d
      simp only [Memory.wfFrom, Bool.and_eq_true, decide_eq_true_eq] at hn
      exact absurd (h k).symm (by simpa [Memory.read] using hn.1.2)
  | cons c m ih =>
    obtain ⟨b, v⟩ := c
    simp only [Memory.wfFrom, Bool.and_eq_true, decide_eq_true_eq] at hm
    cases n with
    | nil => exact absurd (h b) (by simpa [Memory.read] using hm.1.2)
    | cons d n =>
      obtain ⟨k, w⟩ := d
      simp only [Memory.wfFrom, Bool.and_eq_true, decide_eq_true_eq] at hn
      have hb := h b
      have hk := h k
      have below_n := Memory.read_below (a := b) hn.2
      have below_m := Memory.read_below (a := k) hm.2
      have hbk : b = k := by
        rcases Nat.lt_trichotomy b k with hlt | heq | hgt
        · rw [Memory.read, if_pos rfl, Memory.read, if_neg (by omega), below_n (by omega)] at hb
          exact absurd hb hm.1.2
        · exact heq
        · rw [Memory.read, if_neg (by omega), below_m (by omega), Memory.read, if_pos rfl] at hk
          exact absurd hk.symm hn.1.2
      subst hbk
      have hvw : v = w := by simpa [Memory.read] using hb
      subst hvw
      have htail : ∀ a, Memory.read dflt m a = Memory.read dflt n a := by
        intro a
        by_cases hab : a = b
        · subst hab
          rw [Memory.read_below hm.2 (by omega), Memory.read_below hn.2 (by omega)]
        · simpa [Memory.read, hab] using h a
      rw [ih hm.2 hn.2 htail]

/-- Two storages in canonical form that read alike are equal data. -/
theorem Memory.ext {dflt : Nat → Byte} {size : Nat} {m n : Memory} (hm : Memory.wf dflt size m = true)
    (hn : Memory.wf dflt size n = true) (h : ∀ a, Memory.read dflt m a = Memory.read dflt n a) : m = n :=
  Memory.ext_from hm hn h

/-- The storages of every reset state are in canonical form. -/
theorem State.reset_storages_wf (c : Config) :
    Memory.wf fbReset fbCap (State.resetWith c).fb = true ∧
      Memory.wf (rbReset c) rbSize (State.resetWith c).rb = true := ⟨rfl, rfl⟩

end Sys2Proof.Machine
end

