-- ==== Sys2Proof/Laws/State.lean ====
section
/-! SUPPORT. One lemma per field of State and named update of Ops.lean, each true by unfolding, so that no proof unfolds
a record update. -/

namespace Sys2Proof.Machine

@[simp] theorem State.emit_cfg (s : State) (r : Result) : (s.emit r).cfg = s.cfg := rfl
@[simp] theorem State.emit_fb (s : State) (r : Result) : (s.emit r).fb = s.fb := rfl
@[simp] theorem State.emit_cur (s : State) (r : Result) : (s.emit r).cur = s.cur := rfl
@[simp] theorem State.emit_lastRx (s : State) (r : Result) : (s.emit r).lastRx = s.lastRx := rfl
@[simp] theorem State.emit_rb (s : State) (r : Result) : (s.emit r).rb = s.rb := rfl
@[simp] theorem State.emit_hist (s : State) (r : Result) : (s.emit r).hist = s.hist := rfl
@[simp] theorem State.emit_hlen (s : State) (r : Result) : (s.emit r).hlen = s.hlen := rfl
@[simp] theorem State.emit_est (s : State) (r : Result) : (s.emit r).est = s.est := rfl
@[simp] theorem State.emit_refSum (s : State) (r : Result) : (s.emit r).refSum = s.refSum := rfl
@[simp] theorem State.emit_refCnt (s : State) (r : Result) : (s.emit r).refCnt = s.refCnt := rfl
@[simp] theorem State.emit_mode (s : State) (r : Result) : (s.emit r).mode = s.mode := rfl
@[simp] theorem State.emit_calSum (s : State) (r : Result) : (s.emit r).calSum = s.calSum := rfl
@[simp] theorem State.emit_calCnt (s : State) (r : Result) : (s.emit r).calCnt = s.calCnt := rfl
@[simp] theorem State.emit_calTries (s : State) (r : Result) : (s.emit r).calTries = s.calTries := rfl
@[simp] theorem State.emit_calOk (s : State) (r : Result) : (s.emit r).calOk = s.calOk := rfl
@[simp] theorem State.emit_active (s : State) (r : Result) : (s.emit r).active = s.active := rfl
@[simp] theorem State.emit_tx (s : State) (r : Result) : (s.emit r).tx = s.tx := rfl
@[simp] theorem State.emit_inbox (s : State) (r : Result) : (s.emit r).inbox = s.inbox := rfl
@[simp] theorem State.emit_results (s : State) (r : Result) : (s.emit r).results = s.results ++ [r] := rfl

@[simp] theorem State.transmit_cfg (s : State) (bs : List Byte) : (s.transmit bs).cfg = s.cfg := rfl
@[simp] theorem State.transmit_fb (s : State) (bs : List Byte) : (s.transmit bs).fb = s.fb := rfl
@[simp] theorem State.transmit_cur (s : State) (bs : List Byte) : (s.transmit bs).cur = s.cur := rfl
@[simp] theorem State.transmit_lastRx (s : State) (bs : List Byte) : (s.transmit bs).lastRx = s.lastRx := rfl
@[simp] theorem State.transmit_rb (s : State) (bs : List Byte) : (s.transmit bs).rb = s.rb := rfl
@[simp] theorem State.transmit_hist (s : State) (bs : List Byte) : (s.transmit bs).hist = s.hist := rfl
@[simp] theorem State.transmit_hlen (s : State) (bs : List Byte) : (s.transmit bs).hlen = s.hlen := rfl
@[simp] theorem State.transmit_est (s : State) (bs : List Byte) : (s.transmit bs).est = s.est := rfl
@[simp] theorem State.transmit_refSum (s : State) (bs : List Byte) : (s.transmit bs).refSum = s.refSum := rfl
@[simp] theorem State.transmit_refCnt (s : State) (bs : List Byte) : (s.transmit bs).refCnt = s.refCnt := rfl
@[simp] theorem State.transmit_mode (s : State) (bs : List Byte) : (s.transmit bs).mode = s.mode := rfl
@[simp] theorem State.transmit_calSum (s : State) (bs : List Byte) : (s.transmit bs).calSum = s.calSum := rfl
@[simp] theorem State.transmit_calCnt (s : State) (bs : List Byte) : (s.transmit bs).calCnt = s.calCnt := rfl
@[simp] theorem State.transmit_calTries (s : State) (bs : List Byte) : (s.transmit bs).calTries = s.calTries := rfl
@[simp] theorem State.transmit_calOk (s : State) (bs : List Byte) : (s.transmit bs).calOk = s.calOk := rfl
@[simp] theorem State.transmit_active (s : State) (bs : List Byte) : (s.transmit bs).active = s.active := rfl
@[simp] theorem State.transmit_tx (s : State) (bs : List Byte) : (s.transmit bs).tx = s.tx ++ bs := rfl
@[simp] theorem State.transmit_inbox (s : State) (bs : List Byte) : (s.transmit bs).inbox = s.inbox := rfl
@[simp] theorem State.transmit_results (s : State) (bs : List Byte) : (s.transmit bs).results = s.results := rfl

@[simp] theorem State.storeBytes_cfg (s : State) (now : Word) (bs : List Byte) : (s.storeBytes now bs).cfg = s.cfg := rfl
@[simp] theorem State.storeBytes_fb (s : State) (now : Word) (bs : List Byte) : (s.storeBytes now bs).fb = Memory.writeList fbReset s.fb s.cur.toNat bs := rfl
@[simp] theorem State.storeBytes_cur (s : State) (now : Word) (bs : List Byte) : (s.storeBytes now bs).cur = BitVec.ofNat 7 (s.cur.toNat + bs.length) := rfl
@[simp] theorem State.storeBytes_lastRx (s : State) (now : Word) (bs : List Byte) : (s.storeBytes now bs).lastRx = now := rfl
@[simp] theorem State.storeBytes_rb (s : State) (now : Word) (bs : List Byte) : (s.storeBytes now bs).rb = s.rb := rfl
@[simp] theorem State.storeBytes_hist (s : State) (now : Word) (bs : List Byte) : (s.storeBytes now bs).hist = s.hist := rfl
@[simp] theorem State.storeBytes_hlen (s : State) (now : Word) (bs : List Byte) : (s.storeBytes now bs).hlen = s.hlen := rfl
@[simp] theorem State.storeBytes_est (s : State) (now : Word) (bs : List Byte) : (s.storeBytes now bs).est = s.est := rfl
@[simp] theorem State.storeBytes_refSum (s : State) (now : Word) (bs : List Byte) : (s.storeBytes now bs).refSum = s.refSum := rfl
@[simp] theorem State.storeBytes_refCnt (s : State) (now : Word) (bs : List Byte) : (s.storeBytes now bs).refCnt = s.refCnt := rfl
@[simp] theorem State.storeBytes_mode (s : State) (now : Word) (bs : List Byte) : (s.storeBytes now bs).mode = s.mode := rfl
@[simp] theorem State.storeBytes_calSum (s : State) (now : Word) (bs : List Byte) : (s.storeBytes now bs).calSum = s.calSum := rfl
@[simp] theorem State.storeBytes_calCnt (s : State) (now : Word) (bs : List Byte) : (s.storeBytes now bs).calCnt = s.calCnt := rfl
@[simp] theorem State.storeBytes_calTries (s : State) (now : Word) (bs : List Byte) : (s.storeBytes now bs).calTries = s.calTries := rfl
@[simp] theorem State.storeBytes_calOk (s : State) (now : Word) (bs : List Byte) : (s.storeBytes now bs).calOk = s.calOk := rfl
@[simp] theorem State.storeBytes_active (s : State) (now : Word) (bs : List Byte) : (s.storeBytes now bs).active = s.active := rfl
@[simp] theorem State.storeBytes_tx (s : State) (now : Word) (bs : List Byte) : (s.storeBytes now bs).tx = s.tx := rfl
@[simp] theorem State.storeBytes_inbox (s : State) (now : Word) (bs : List Byte) : (s.storeBytes now bs).inbox = s.inbox := rfl
@[simp] theorem State.storeBytes_results (s : State) (now : Word) (bs : List Byte) : (s.storeBytes now bs).results = s.results := rfl

@[simp] theorem State.clearFrame_cfg (s : State) : s.clearFrame.cfg = s.cfg := rfl
@[simp] theorem State.clearFrame_fb (s : State) : s.clearFrame.fb = s.fb := rfl
@[simp] theorem State.clearFrame_cur (s : State) : s.clearFrame.cur = 0 := rfl
@[simp] theorem State.clearFrame_lastRx (s : State) : s.clearFrame.lastRx = s.lastRx := rfl
@[simp] theorem State.clearFrame_rb (s : State) : s.clearFrame.rb = s.rb := rfl
@[simp] theorem State.clearFrame_hist (s : State) : s.clearFrame.hist = s.hist := rfl
@[simp] theorem State.clearFrame_hlen (s : State) : s.clearFrame.hlen = s.hlen := rfl
@[simp] theorem State.clearFrame_est (s : State) : s.clearFrame.est = s.est := rfl
@[simp] theorem State.clearFrame_refSum (s : State) : s.clearFrame.refSum = s.refSum := rfl
@[simp] theorem State.clearFrame_refCnt (s : State) : s.clearFrame.refCnt = s.refCnt := rfl
@[simp] theorem State.clearFrame_mode (s : State) : s.clearFrame.mode = s.mode := rfl
@[simp] theorem State.clearFrame_calSum (s : State) : s.clearFrame.calSum = s.calSum := rfl
@[simp] theorem State.clearFrame_calCnt (s : State) : s.clearFrame.calCnt = s.calCnt := rfl
@[simp] theorem State.clearFrame_calTries (s : State) : s.clearFrame.calTries = s.calTries := rfl
@[simp] theorem State.clearFrame_calOk (s : State) : s.clearFrame.calOk = s.calOk := rfl
@[simp] theorem State.clearFrame_active (s : State) : s.clearFrame.active = s.active := rfl
@[simp] theorem State.clearFrame_tx (s : State) : s.clearFrame.tx = s.tx := rfl
@[simp] theorem State.clearFrame_inbox (s : State) : s.clearFrame.inbox = s.inbox := rfl
@[simp] theorem State.clearFrame_results (s : State) : s.clearFrame.results = s.results := rfl

@[simp] theorem State.storeHistory_cfg (s : State) (h : List Byte) : (s.storeHistory h).cfg = s.cfg := rfl
@[simp] theorem State.storeHistory_fb (s : State) (h : List Byte) : (s.storeHistory h).fb = s.fb := rfl
@[simp] theorem State.storeHistory_cur (s : State) (h : List Byte) : (s.storeHistory h).cur = s.cur := rfl
@[simp] theorem State.storeHistory_lastRx (s : State) (h : List Byte) : (s.storeHistory h).lastRx = s.lastRx := rfl
@[simp] theorem State.storeHistory_rb (s : State) (h : List Byte) : (s.storeHistory h).rb = s.rb := rfl
@[simp] theorem State.storeHistory_hist (s : State) (h : List Byte) : (s.storeHistory h).hist = #v[h.getD 0 s.hist[0], h.getD 1 s.hist[1], h.getD 2 s.hist[2], h.getD 3 s.hist[3], h.getD 4 s.hist[4]] := rfl
@[simp] theorem State.storeHistory_hlen (s : State) (h : List Byte) : (s.storeHistory h).hlen = BitVec.ofNat 3 h.length := rfl
@[simp] theorem State.storeHistory_est (s : State) (h : List Byte) : (s.storeHistory h).est = s.est := rfl
@[simp] theorem State.storeHistory_refSum (s : State) (h : List Byte) : (s.storeHistory h).refSum = s.refSum := rfl
@[simp] theorem State.storeHistory_refCnt (s : State) (h : List Byte) : (s.storeHistory h).refCnt = s.refCnt := rfl
@[simp] theorem State.storeHistory_mode (s : State) (h : List Byte) : (s.storeHistory h).mode = s.mode := rfl
@[simp] theorem State.storeHistory_calSum (s : State) (h : List Byte) : (s.storeHistory h).calSum = s.calSum := rfl
@[simp] theorem State.storeHistory_calCnt (s : State) (h : List Byte) : (s.storeHistory h).calCnt = s.calCnt := rfl
@[simp] theorem State.storeHistory_calTries (s : State) (h : List Byte) : (s.storeHistory h).calTries = s.calTries := rfl
@[simp] theorem State.storeHistory_calOk (s : State) (h : List Byte) : (s.storeHistory h).calOk = s.calOk := rfl
@[simp] theorem State.storeHistory_active (s : State) (h : List Byte) : (s.storeHistory h).active = s.active := rfl
@[simp] theorem State.storeHistory_tx (s : State) (h : List Byte) : (s.storeHistory h).tx = s.tx := rfl
@[simp] theorem State.storeHistory_inbox (s : State) (h : List Byte) : (s.storeHistory h).inbox = s.inbox := rfl
@[simp] theorem State.storeHistory_results (s : State) (h : List Byte) : (s.storeHistory h).results = s.results := rfl

@[simp] theorem State.setEst_cfg (s : State) (v : Word) : (s.setEst v).cfg = s.cfg := rfl
@[simp] theorem State.setEst_fb (s : State) (v : Word) : (s.setEst v).fb = s.fb := rfl
@[simp] theorem State.setEst_cur (s : State) (v : Word) : (s.setEst v).cur = s.cur := rfl
@[simp] theorem State.setEst_lastRx (s : State) (v : Word) : (s.setEst v).lastRx = s.lastRx := rfl
@[simp] theorem State.setEst_rb (s : State) (v : Word) : (s.setEst v).rb = s.rb := rfl
@[simp] theorem State.setEst_hist (s : State) (v : Word) : (s.setEst v).hist = s.hist := rfl
@[simp] theorem State.setEst_hlen (s : State) (v : Word) : (s.setEst v).hlen = s.hlen := rfl
@[simp] theorem State.setEst_est (s : State) (v : Word) : (s.setEst v).est = v := rfl
@[simp] theorem State.setEst_refSum (s : State) (v : Word) : (s.setEst v).refSum = s.refSum := rfl
@[simp] theorem State.setEst_refCnt (s : State) (v : Word) : (s.setEst v).refCnt = s.refCnt := rfl
@[simp] theorem State.setEst_mode (s : State) (v : Word) : (s.setEst v).mode = s.mode := rfl
@[simp] theorem State.setEst_calSum (s : State) (v : Word) : (s.setEst v).calSum = s.calSum := rfl
@[simp] theorem State.setEst_calCnt (s : State) (v : Word) : (s.setEst v).calCnt = s.calCnt := rfl
@[simp] theorem State.setEst_calTries (s : State) (v : Word) : (s.setEst v).calTries = s.calTries := rfl
@[simp] theorem State.setEst_calOk (s : State) (v : Word) : (s.setEst v).calOk = s.calOk := rfl
@[simp] theorem State.setEst_active (s : State) (v : Word) : (s.setEst v).active = s.active := rfl
@[simp] theorem State.setEst_tx (s : State) (v : Word) : (s.setEst v).tx = s.tx := rfl
@[simp] theorem State.setEst_inbox (s : State) (v : Word) : (s.setEst v).inbox = s.inbox := rfl
@[simp] theorem State.setEst_results (s : State) (v : Word) : (s.setEst v).results = s.results := rfl

@[simp] theorem State.clearEstimate_cfg (s : State) : s.clearEstimate.cfg = s.cfg := rfl
@[simp] theorem State.clearEstimate_fb (s : State) : s.clearEstimate.fb = s.fb := rfl
@[simp] theorem State.clearEstimate_cur (s : State) : s.clearEstimate.cur = s.cur := rfl
@[simp] theorem State.clearEstimate_lastRx (s : State) : s.clearEstimate.lastRx = s.lastRx := rfl
@[simp] theorem State.clearEstimate_rb (s : State) : s.clearEstimate.rb = s.rb := rfl
@[simp] theorem State.clearEstimate_hist (s : State) : s.clearEstimate.hist = s.hist := rfl
@[simp] theorem State.clearEstimate_hlen (s : State) : s.clearEstimate.hlen = 0 := rfl
@[simp] theorem State.clearEstimate_est (s : State) : s.clearEstimate.est = 0xFFFFFF9C := rfl
@[simp] theorem State.clearEstimate_refSum (s : State) : s.clearEstimate.refSum = s.refSum := rfl
@[simp] theorem State.clearEstimate_refCnt (s : State) : s.clearEstimate.refCnt = s.refCnt := rfl
@[simp] theorem State.clearEstimate_mode (s : State) : s.clearEstimate.mode = s.mode := rfl
@[simp] theorem State.clearEstimate_calSum (s : State) : s.clearEstimate.calSum = s.calSum := rfl
@[simp] theorem State.clearEstimate_calCnt (s : State) : s.clearEstimate.calCnt = s.calCnt := rfl
@[simp] theorem State.clearEstimate_calTries (s : State) : s.clearEstimate.calTries = s.calTries := rfl
@[simp] theorem State.clearEstimate_calOk (s : State) : s.clearEstimate.calOk = s.calOk := rfl
@[simp] theorem State.clearEstimate_active (s : State) : s.clearEstimate.active = s.active := rfl
@[simp] theorem State.clearEstimate_tx (s : State) : s.clearEstimate.tx = s.tx := rfl
@[simp] theorem State.clearEstimate_inbox (s : State) : s.clearEstimate.inbox = s.inbox := rfl
@[simp] theorem State.clearEstimate_results (s : State) : s.clearEstimate.results = s.results := rfl

@[simp] theorem State.enterCal_cfg (s : State) : s.enterCal.cfg = s.cfg := rfl
@[simp] theorem State.enterCal_fb (s : State) : s.enterCal.fb = s.fb := rfl
@[simp] theorem State.enterCal_cur (s : State) : s.enterCal.cur = s.cur := rfl
@[simp] theorem State.enterCal_lastRx (s : State) : s.enterCal.lastRx = s.lastRx := rfl
@[simp] theorem State.enterCal_rb (s : State) : s.enterCal.rb = s.rb := rfl
@[simp] theorem State.enterCal_hist (s : State) : s.enterCal.hist = s.hist := rfl
@[simp] theorem State.enterCal_hlen (s : State) : s.enterCal.hlen = s.hlen := rfl
@[simp] theorem State.enterCal_est (s : State) : s.enterCal.est = s.est := rfl
@[simp] theorem State.enterCal_refSum (s : State) : s.enterCal.refSum = s.refSum := rfl
@[simp] theorem State.enterCal_refCnt (s : State) : s.enterCal.refCnt = s.refCnt := rfl
@[simp] theorem State.enterCal_mode (s : State) : s.enterCal.mode = .cal := rfl
@[simp] theorem State.enterCal_calSum (s : State) : s.enterCal.calSum = 0 := rfl
@[simp] theorem State.enterCal_calCnt (s : State) : s.enterCal.calCnt = 0 := rfl
@[simp] theorem State.enterCal_calTries (s : State) : s.enterCal.calTries = 0 := rfl
@[simp] theorem State.enterCal_calOk (s : State) : s.enterCal.calOk = false := rfl
@[simp] theorem State.enterCal_active (s : State) : s.enterCal.active = s.active := rfl
@[simp] theorem State.enterCal_tx (s : State) : s.enterCal.tx = s.tx := rfl
@[simp] theorem State.enterCal_inbox (s : State) : s.enterCal.inbox = s.inbox := rfl
@[simp] theorem State.enterCal_results (s : State) : s.enterCal.results = s.results := rfl

@[simp] theorem State.setCal_cfg (s : State) (n : Nat) (z : Int) (k : Nat) : (s.setCal n z k).cfg = s.cfg := rfl
@[simp] theorem State.setCal_fb (s : State) (n : Nat) (z : Int) (k : Nat) : (s.setCal n z k).fb = s.fb := rfl
@[simp] theorem State.setCal_cur (s : State) (n : Nat) (z : Int) (k : Nat) : (s.setCal n z k).cur = s.cur := rfl
@[simp] theorem State.setCal_lastRx (s : State) (n : Nat) (z : Int) (k : Nat) : (s.setCal n z k).lastRx = s.lastRx := rfl
@[simp] theorem State.setCal_rb (s : State) (n : Nat) (z : Int) (k : Nat) : (s.setCal n z k).rb = s.rb := rfl
@[simp] theorem State.setCal_hist (s : State) (n : Nat) (z : Int) (k : Nat) : (s.setCal n z k).hist = s.hist := rfl
@[simp] theorem State.setCal_hlen (s : State) (n : Nat) (z : Int) (k : Nat) : (s.setCal n z k).hlen = s.hlen := rfl
@[simp] theorem State.setCal_est (s : State) (n : Nat) (z : Int) (k : Nat) : (s.setCal n z k).est = s.est := rfl
@[simp] theorem State.setCal_refSum (s : State) (n : Nat) (z : Int) (k : Nat) : (s.setCal n z k).refSum = s.refSum := rfl
@[simp] theorem State.setCal_refCnt (s : State) (n : Nat) (z : Int) (k : Nat) : (s.setCal n z k).refCnt = s.refCnt := rfl
@[simp] theorem State.setCal_mode (s : State) (n : Nat) (z : Int) (k : Nat) : (s.setCal n z k).mode = s.mode := rfl
@[simp] theorem State.setCal_calSum (s : State) (n : Nat) (z : Int) (k : Nat) : (s.setCal n z k).calSum = BitVec.ofInt 12 z := rfl
@[simp] theorem State.setCal_calCnt (s : State) (n : Nat) (z : Int) (k : Nat) : (s.setCal n z k).calCnt = BitVec.ofNat 4 k := rfl
@[simp] theorem State.setCal_calTries (s : State) (n : Nat) (z : Int) (k : Nat) : (s.setCal n z k).calTries = BitVec.ofNat 5 n := rfl
@[simp] theorem State.setCal_calOk (s : State) (n : Nat) (z : Int) (k : Nat) : (s.setCal n z k).calOk = s.calOk := rfl
@[simp] theorem State.setCal_active (s : State) (n : Nat) (z : Int) (k : Nat) : (s.setCal n z k).active = s.active := rfl
@[simp] theorem State.setCal_tx (s : State) (n : Nat) (z : Int) (k : Nat) : (s.setCal n z k).tx = s.tx := rfl
@[simp] theorem State.setCal_inbox (s : State) (n : Nat) (z : Int) (k : Nat) : (s.setCal n z k).inbox = s.inbox := rfl
@[simp] theorem State.setCal_results (s : State) (n : Nat) (z : Int) (k : Nat) : (s.setCal n z k).results = s.results := rfl

@[simp] theorem State.leaveCal_cfg (s : State) (b : Bool) : (s.leaveCal b).cfg = s.cfg := rfl
@[simp] theorem State.leaveCal_fb (s : State) (b : Bool) : (s.leaveCal b).fb = s.fb := rfl
@[simp] theorem State.leaveCal_cur (s : State) (b : Bool) : (s.leaveCal b).cur = s.cur := rfl
@[simp] theorem State.leaveCal_lastRx (s : State) (b : Bool) : (s.leaveCal b).lastRx = s.lastRx := rfl
@[simp] theorem State.leaveCal_rb (s : State) (b : Bool) : (s.leaveCal b).rb = s.rb := rfl
@[simp] theorem State.leaveCal_hist (s : State) (b : Bool) : (s.leaveCal b).hist = s.hist := rfl
@[simp] theorem State.leaveCal_hlen (s : State) (b : Bool) : (s.leaveCal b).hlen = s.hlen := rfl
@[simp] theorem State.leaveCal_est (s : State) (b : Bool) : (s.leaveCal b).est = s.est := rfl
@[simp] theorem State.leaveCal_refSum (s : State) (b : Bool) : (s.leaveCal b).refSum = s.refSum := rfl
@[simp] theorem State.leaveCal_refCnt (s : State) (b : Bool) : (s.leaveCal b).refCnt = s.refCnt := rfl
@[simp] theorem State.leaveCal_mode (s : State) (b : Bool) : (s.leaveCal b).mode = .normal := rfl
@[simp] theorem State.leaveCal_calSum (s : State) (b : Bool) : (s.leaveCal b).calSum = s.calSum := rfl
@[simp] theorem State.leaveCal_calCnt (s : State) (b : Bool) : (s.leaveCal b).calCnt = s.calCnt := rfl
@[simp] theorem State.leaveCal_calTries (s : State) (b : Bool) : (s.leaveCal b).calTries = s.calTries := rfl
@[simp] theorem State.leaveCal_calOk (s : State) (b : Bool) : (s.leaveCal b).calOk = b := rfl
@[simp] theorem State.leaveCal_active (s : State) (b : Bool) : (s.leaveCal b).active = s.active := rfl
@[simp] theorem State.leaveCal_tx (s : State) (b : Bool) : (s.leaveCal b).tx = s.tx := rfl
@[simp] theorem State.leaveCal_inbox (s : State) (b : Bool) : (s.leaveCal b).inbox = s.inbox := rfl
@[simp] theorem State.leaveCal_results (s : State) (b : Bool) : (s.leaveCal b).results = s.results := rfl

@[simp] theorem State.setReference_cfg (s : State) (z : Int) (k : Nat) : (s.setReference z k).cfg = s.cfg := rfl
@[simp] theorem State.setReference_fb (s : State) (z : Int) (k : Nat) : (s.setReference z k).fb = s.fb := rfl
@[simp] theorem State.setReference_cur (s : State) (z : Int) (k : Nat) : (s.setReference z k).cur = s.cur := rfl
@[simp] theorem State.setReference_lastRx (s : State) (z : Int) (k : Nat) : (s.setReference z k).lastRx = s.lastRx := rfl
@[simp] theorem State.setReference_rb (s : State) (z : Int) (k : Nat) : (s.setReference z k).rb = s.rb := rfl
@[simp] theorem State.setReference_hist (s : State) (z : Int) (k : Nat) : (s.setReference z k).hist = s.hist := rfl
@[simp] theorem State.setReference_hlen (s : State) (z : Int) (k : Nat) : (s.setReference z k).hlen = s.hlen := rfl
@[simp] theorem State.setReference_est (s : State) (z : Int) (k : Nat) : (s.setReference z k).est = s.est := rfl
@[simp] theorem State.setReference_refSum (s : State) (z : Int) (k : Nat) : (s.setReference z k).refSum = BitVec.ofInt 12 z := rfl
@[simp] theorem State.setReference_refCnt (s : State) (z : Int) (k : Nat) : (s.setReference z k).refCnt = BitVec.ofNat 4 k := rfl
@[simp] theorem State.setReference_mode (s : State) (z : Int) (k : Nat) : (s.setReference z k).mode = s.mode := rfl
@[simp] theorem State.setReference_calSum (s : State) (z : Int) (k : Nat) : (s.setReference z k).calSum = s.calSum := rfl
@[simp] theorem State.setReference_calCnt (s : State) (z : Int) (k : Nat) : (s.setReference z k).calCnt = s.calCnt := rfl
@[simp] theorem State.setReference_calTries (s : State) (z : Int) (k : Nat) : (s.setReference z k).calTries = s.calTries := rfl
@[simp] theorem State.setReference_calOk (s : State) (z : Int) (k : Nat) : (s.setReference z k).calOk = s.calOk := rfl
@[simp] theorem State.setReference_active (s : State) (z : Int) (k : Nat) : (s.setReference z k).active = s.active := rfl
@[simp] theorem State.setReference_tx (s : State) (z : Int) (k : Nat) : (s.setReference z k).tx = s.tx := rfl
@[simp] theorem State.setReference_inbox (s : State) (z : Int) (k : Nat) : (s.setReference z k).inbox = s.inbox := rfl
@[simp] theorem State.setReference_results (s : State) (z : Int) (k : Nat) : (s.setReference z k).results = s.results := rfl

@[simp] theorem State.setActive_cfg (s : State) (b : Bool) : (s.setActive b).cfg = s.cfg := rfl
@[simp] theorem State.setActive_fb (s : State) (b : Bool) : (s.setActive b).fb = s.fb := rfl
@[simp] theorem State.setActive_cur (s : State) (b : Bool) : (s.setActive b).cur = s.cur := rfl
@[simp] theorem State.setActive_lastRx (s : State) (b : Bool) : (s.setActive b).lastRx = s.lastRx := rfl
@[simp] theorem State.setActive_rb (s : State) (b : Bool) : (s.setActive b).rb = s.rb := rfl
@[simp] theorem State.setActive_hist (s : State) (b : Bool) : (s.setActive b).hist = s.hist := rfl
@[simp] theorem State.setActive_hlen (s : State) (b : Bool) : (s.setActive b).hlen = s.hlen := rfl
@[simp] theorem State.setActive_est (s : State) (b : Bool) : (s.setActive b).est = s.est := rfl
@[simp] theorem State.setActive_refSum (s : State) (b : Bool) : (s.setActive b).refSum = s.refSum := rfl
@[simp] theorem State.setActive_refCnt (s : State) (b : Bool) : (s.setActive b).refCnt = s.refCnt := rfl
@[simp] theorem State.setActive_mode (s : State) (b : Bool) : (s.setActive b).mode = s.mode := rfl
@[simp] theorem State.setActive_calSum (s : State) (b : Bool) : (s.setActive b).calSum = s.calSum := rfl
@[simp] theorem State.setActive_calCnt (s : State) (b : Bool) : (s.setActive b).calCnt = s.calCnt := rfl
@[simp] theorem State.setActive_calTries (s : State) (b : Bool) : (s.setActive b).calTries = s.calTries := rfl
@[simp] theorem State.setActive_calOk (s : State) (b : Bool) : (s.setActive b).calOk = s.calOk := rfl
@[simp] theorem State.setActive_active (s : State) (b : Bool) : (s.setActive b).active = b := rfl
@[simp] theorem State.setActive_tx (s : State) (b : Bool) : (s.setActive b).tx = s.tx := rfl
@[simp] theorem State.setActive_inbox (s : State) (b : Bool) : (s.setActive b).inbox = s.inbox := rfl
@[simp] theorem State.setActive_results (s : State) (b : Bool) : (s.setActive b).results = s.results := rfl

@[simp] theorem State.takeCommand_cfg (s : State) (cs : List Command) : (s.takeCommand cs).cfg = s.cfg := rfl
@[simp] theorem State.takeCommand_fb (s : State) (cs : List Command) : (s.takeCommand cs).fb = s.fb := rfl
@[simp] theorem State.takeCommand_cur (s : State) (cs : List Command) : (s.takeCommand cs).cur = s.cur := rfl
@[simp] theorem State.takeCommand_lastRx (s : State) (cs : List Command) : (s.takeCommand cs).lastRx = s.lastRx := rfl
@[simp] theorem State.takeCommand_rb (s : State) (cs : List Command) : (s.takeCommand cs).rb = s.rb := rfl
@[simp] theorem State.takeCommand_hist (s : State) (cs : List Command) : (s.takeCommand cs).hist = s.hist := rfl
@[simp] theorem State.takeCommand_hlen (s : State) (cs : List Command) : (s.takeCommand cs).hlen = s.hlen := rfl
@[simp] theorem State.takeCommand_est (s : State) (cs : List Command) : (s.takeCommand cs).est = s.est := rfl
@[simp] theorem State.takeCommand_refSum (s : State) (cs : List Command) : (s.takeCommand cs).refSum = s.refSum := rfl
@[simp] theorem State.takeCommand_refCnt (s : State) (cs : List Command) : (s.takeCommand cs).refCnt = s.refCnt := rfl
@[simp] theorem State.takeCommand_mode (s : State) (cs : List Command) : (s.takeCommand cs).mode = s.mode := rfl
@[simp] theorem State.takeCommand_calSum (s : State) (cs : List Command) : (s.takeCommand cs).calSum = s.calSum := rfl
@[simp] theorem State.takeCommand_calCnt (s : State) (cs : List Command) : (s.takeCommand cs).calCnt = s.calCnt := rfl
@[simp] theorem State.takeCommand_calTries (s : State) (cs : List Command) : (s.takeCommand cs).calTries = s.calTries := rfl
@[simp] theorem State.takeCommand_calOk (s : State) (cs : List Command) : (s.takeCommand cs).calOk = s.calOk := rfl
@[simp] theorem State.takeCommand_active (s : State) (cs : List Command) : (s.takeCommand cs).active = s.active := rfl
@[simp] theorem State.takeCommand_tx (s : State) (cs : List Command) : (s.takeCommand cs).tx = s.tx := rfl
@[simp] theorem State.takeCommand_inbox (s : State) (cs : List Command) : (s.takeCommand cs).inbox = cs := rfl
@[simp] theorem State.takeCommand_results (s : State) (cs : List Command) : (s.takeCommand cs).results = s.results := rfl

end Sys2Proof.Machine
end

