-- ==== Sys2Proof/Laws/Views.lean ====
section
/-! SUPPORT. The small laws of the views and shared operations: lengths of slices and frames, the checksum's append law,
the byte-order helpers. -/

namespace Sys2Proof.Machine

@[simp] theorem State.frame_length (s : State) : s.frame.length = s.cur.toNat := by simp [State.frame]

@[simp] theorem State.memRead_length (s : State) (addr n : Nat) : (s.memRead addr n).length = n := by
  simp [State.memRead]

theorem State.memRead_getElem (s : State) (addr n i : Nat) (h : i < n) :
    (s.memRead addr n)[i]'(by simpa using h) = s.rbByte (addr + i) := by simp [State.memRead]

/-- RB reads alike in two states with one configuration and one RB. -/
theorem State.rbByte_congr {s t : State} (hc : t.cfg = s.cfg) (hr : t.rb = s.rb) (a : Nat) :
    t.rbByte a = s.rbByte a := by simp [State.rbByte, hc, hr]

theorem State.fbByte_congr {s t : State} (h : t.fb = s.fb) (a : Nat) : t.fbByte a = s.fbByte a := by
  simp [State.fbByte, h]

@[simp] theorem le16_length (v : Half) : (le16 v).length = 2 := rfl

@[simp] theorem be16bytes_length (v : Half) : (be16bytes v).length = 2 := rfl

@[simp] theorem closeFrame_length (body : List Byte) : (closeFrame body).length = body.length + 2 := by
  simp [closeFrame]

/-- Reading big-endian what was written big-endian. -/
theorem be16_be16bytes (v : Half) : be16 (v.extractLsb' 8 8) (v.extractLsb' 0 8) = v := by
  unfold be16
  ext i hi
  simp only [BitVec.getElem_append, BitVec.getElem_extractLsb']
  split
  · simp [← BitVec.getLsbD_eq_getElem]
  · next h =>
    simp [← BitVec.getLsbD_eq_getElem]
    congr 1
    omega

/-- `BE16(h, l) = h * 256 + l` (R6). -/
theorem be16_toNat (h l : Byte) : (be16 h l).toNat = 256 * h.toNat + l.toNat := by
  have hl := l.isLt
  have e : (be16 h l).toNat = h.toNat <<< 8 ||| l.toNat := BitVec.toNat_append h l
  rw [e, Nat.shiftLeft_eq, Nat.mul_comm, ← Nat.two_pow_add_eq_or_of_lt hl]

/-- Writing big-endian what was read big-endian. -/
theorem be16bytes_be16 (h l : Byte) : be16bytes (be16 h l) = [h, l] := by
  have hh := h.isLt
  have hl := l.isLt
  have e1 : (be16 h l).extractLsb' 8 8 = h := by
    apply BitVec.eq_of_toNat_eq
    rw [BitVec.extractLsb'_toNat, be16_toNat, Nat.shiftRight_eq_div_pow]
    omega
  have e2 : (be16 h l).extractLsb' 0 8 = l := by
    apply BitVec.eq_of_toNat_eq
    rw [BitVec.extractLsb'_toNat, be16_toNat, Nat.shiftRight_eq_div_pow]
    omega
  rw [be16bytes, e1, e2]

/-- The checksum over a concatenation is the checksum of the second part started from the first's value. -/
theorem crcFrom_append (c : Half) (p q : List Byte) : crcFrom c (p ++ q) = crcFrom (crcFrom c p) q := by
  induction p generalizing c with
  | nil => rfl
  | cons b p ih => simp [crcFrom, ih]

theorem crc16_append_byte (p : List Byte) (b : Byte) : crc16 (p ++ [b]) = crcStep (crc16 p) b := by
  simp [crc16, crcFrom_append, crcFrom]

/-- A bit of a register word that holds one field. -/
@[simp] theorem getLsbD_fieldAt {w : Nat} (lo : Nat) (v : BitVec w) (k : Nat) :
    (fieldAt lo v).getLsbD k = (decide (k < 32) && decide (lo ≤ k) && v.getLsbD (k - lo)) := by
  by_cases h : k < 32
  · by_cases h2 : lo ≤ k
    · simp [fieldAt, h, h2, Nat.not_lt.2 h2]
    · simp [fieldAt, h, h2, Nat.lt_of_not_le h2]
  · simp [fieldAt, h]

@[simp] theorem getLsbD_bitAt (lo : Nat) (b : Bool) (k : Nat) :
    (bitAt lo b).getLsbD k = (decide (k < 32) && decide (k = lo) && b) := by
  unfold bitAt
  rw [getLsbD_fieldAt]
  by_cases h : k = lo
  · subst h; cases b <;> simp
  · by_cases h2 : lo ≤ k
    · have : ¬ k - lo = 0 := by omega
      cases b <;> simp [h, h2, this]
    · simp [h, h2]

@[simp] theorem getElem_fieldAt {w : Nat} (lo : Nat) (v : BitVec w) (k : Nat) (h : k < 32) :
    (fieldAt lo v)[k] = (decide (lo ≤ k) && v.getLsbD (k - lo)) := by
  rw [← BitVec.getLsbD_eq_getElem, getLsbD_fieldAt]
  simp [h]

@[simp] theorem getElem_bitAt (lo : Nat) (b : Bool) (k : Nat) (h : k < 32) :
    (bitAt lo b)[k] = (decide (k = lo) && b) := by
  rw [← BitVec.getLsbD_eq_getElem, getLsbD_bitAt]
  simp [h]

end Sys2Proof.Machine
end

