-- ==== Sys2Proof/Laws/DecodeLaws.lean ====
section
/-! SUPPORT. What each field check of the command decoder rejects and accepts, the checksum check on a closed frame, and
the width facts behind the round trips. -/

namespace Sys2Proof

/-- The input is rejected, by whatever name. -/
def Decoded.isRejected (d : Decoded) : Prop := ∃ e, d = .rejected e

@[simp] theorem Decoded.ok_isRejected (i : Instr) : (Decoded.ok i).isRejected ↔ False := by
  simp [Decoded.isRejected]

@[simp] theorem Decoded.rejected_isRejected (e : DecodeError) : (Decoded.rejected e).isRejected ↔ True := by
  simp [Decoded.isRejected]

@[simp] theorem needZeroArg_isRejected (arg : Word) (k : Decoded) :
    (needZeroArg arg k).isRejected ↔ arg ≠ 0 ∨ k.isRejected := by
  unfold needZeroArg; split <;> simp_all

theorem extractHigh_eq_zero (arg : Word) : arg.extractLsb' 8 24 = 0 ↔ arg.toNat < 256 := by
  have := arg.isLt
  rw [← BitVec.toNat_inj, BitVec.extractLsb'_toNat]
  simp [Nat.shiftRight_eq_div_pow]
  omega

@[simp] theorem needRssiArg_isRejected (arg : Word) (k : Byte → Decoded) :
    (needRssiArg arg k).isRejected ↔ 256 ≤ arg.toNat ∨ (k (arg.extractLsb' 0 8)).isRejected := by
  unfold needRssiArg
  split
  · next h =>
    have := (extractHigh_eq_zero arg).mp h
    simp [show ¬256 ≤ arg.toNat by omega]
  · next h =>
    have := mt (extractHigh_eq_zero arg).mpr h
    simp [show 256 ≤ arg.toNat by omega]

@[simp] theorem needNoPayload_isRejected (p : List Byte) (k : Decoded) :
    (needNoPayload p k).isRejected ↔ p ≠ [] ∨ k.isRejected := by
  unfold needNoPayload; split <;> simp_all

@[simp] theorem needPayload_isRejected (p : List Byte) (k : Decoded) :
    (needPayload p k).isRejected ↔ 65535 < p.length ∨ k.isRejected := by
  unfold needPayload Machine.maxPayload; split <;> simp_all

@[simp] theorem needFrame_isRejected (p : List Byte) (k : Decoded) :
    (needFrame p k).isRejected ↔ 64 < p.length ∨ k.isRejected := by
  unfold needFrame Machine.fbCap; split <;> simp_all

theorem needZeroArg_ok {arg : Word} {k : Decoded} {i : Instr} (h : needZeroArg arg k = .ok i) :
    arg = 0 ∧ k = .ok i := by
  unfold needZeroArg at h; split at h <;> simp_all

theorem needRssiArg_ok {arg : Word} {k : Byte → Decoded} {i : Instr} (h : needRssiArg arg k = .ok i) :
    arg.toNat < 256 ∧ k (arg.extractLsb' 0 8) = .ok i := by
  unfold needRssiArg at h
  split at h
  · next hz => exact ⟨(extractHigh_eq_zero arg).mp hz, h⟩
  · cases h

theorem needNoPayload_ok {p : List Byte} {k : Decoded} {i : Instr} (h : needNoPayload p k = .ok i) :
    p = [] ∧ k = .ok i := by
  unfold needNoPayload at h; split at h <;> simp_all

theorem needPayload_ok {p : List Byte} {k : Decoded} {i : Instr} (h : needPayload p k = .ok i) :
    p.length ≤ Machine.maxPayload ∧ k = .ok i := by
  unfold needPayload at h; split at h <;> simp_all

theorem needFrame_ok {p : List Byte} {k : Decoded} {i : Instr} (h : needFrame p k = .ok i) :
    p.length ≤ Machine.fbCap ∧ k = .ok i := by
  unfold needFrame at h; split at h <;> simp_all

/-- A sample operand survives its command word. -/
@[simp] theorem rssiArg_extractLsb' (r : Byte) : (rssiArg r).extractLsb' 0 8 = r := by
  apply BitVec.eq_of_toNat_eq
  have := r.isLt
  simp [rssiArg, BitVec.extractLsb'_toNat]
  omega

theorem rssiArg_toNat_lt (r : Byte) : (rssiArg r).toNat < 256 := by
  have := r.isLt
  simp only [rssiArg, BitVec.toNat_setWidth]
  omega

/-- A command word below 256 is that of the sample in its low byte. -/
theorem rssiArg_of_low {arg : Word} (h : arg.toNat < 256) : rssiArg (arg.extractLsb' 0 8) = arg := by
  apply BitVec.eq_of_toNat_eq
  simp [rssiArg, BitVec.extractLsb'_toNat]
  omega

/-- A frame closed with its checksum passes the check of R124. -/
@[simp] theorem crcMatches_closeFrame (body : List Byte) : Machine.crcMatches (Machine.closeFrame body) = true := by
  simp [Machine.crcMatches, Machine.closeFrame]

end Sys2Proof
end

