-- ==== Sys2Proof/Laws/Distance.lean ====
section
/-! SUPPORT. The laws of the bit search and of the sort that the distance model is written with. -/

namespace Sys2Proof.Machine

/-- The bit search finds the least value with `ok` at or above `base`, for an `ok` that stays true once true and holds
at the last candidate `base + 2^bits - 1`. -/
theorem leastFrom_spec {ok : Nat → Bool} (mono : ∀ a b, a ≤ b → ok a = true → ok b = true) (bits base : Nat)
    (last : ok (base + 2 ^ bits - 1) = true) :
    ok (leastFrom ok bits base) = true ∧ base ≤ leastFrom ok bits base ∧
      ∀ d, base ≤ d → d < leastFrom ok bits base → ok d = false := by
  induction bits generalizing base with
  | zero =>
    refine ⟨by simpa [leastFrom] using last, by simp [leastFrom], fun d h1 h2 => ?_⟩
    simp only [leastFrom] at h2
    omega
  | succ bits ih =>
    have hpow : 2 ^ (bits + 1) = 2 * 2 ^ bits := by ring
    have hpos : 0 < 2 ^ bits := Nat.two_pow_pos bits
    simp only [leastFrom]
    split
    · next h => exact ih base h
    · next h =>
      have hlast : ok (base + 2 ^ bits + 2 ^ bits - 1) = true := by
        rw [← last]; congr 1; omega
      obtain ⟨h1, h2, h3⟩ := ih (base + 2 ^ bits) hlast
      refine ⟨h1, by omega, fun d hd hlt => ?_⟩
      by_cases hd' : base + 2 ^ bits ≤ d
      · exact h3 d hd' hlt
      · by_contra hne
        rw [Bool.not_eq_false] at hne
        exact h (mono d _ (by omega) hne)

theorem insertAscending_perm (x : Int) (l : List Int) : (insertAscending x l).Perm (x :: l) := by
  induction l with
  | nil => rfl
  | cons y ys ih =>
    simp only [insertAscending]
    split
    · rfl
    · exact (List.Perm.cons y ih).trans (List.Perm.swap x y ys)

/-- Sorting rearranges. -/
theorem sortAscending_perm (l : List Int) : (sortAscending l).Perm l := by
  induction l with
  | nil => rfl
  | cons x xs ih => exact (insertAscending_perm x _).trans (List.Perm.cons x ih)

theorem insertAscending_pairwise (x : Int) {l : List Int} (h : l.Pairwise (· ≤ ·)) :
    (insertAscending x l).Pairwise (· ≤ ·) := by
  induction l with
  | nil => simp [insertAscending]
  | cons y ys ih =>
    rw [List.pairwise_cons] at h
    simp only [insertAscending]
    split
    · next hxy =>
      rw [List.pairwise_cons, List.pairwise_cons]
      refine ⟨fun z hz => ?_, h⟩
      rcases List.mem_cons.mp hz with rfl | hz
      · exact hxy
      · exact le_trans hxy (h.1 z hz)
    · next hxy =>
      rw [List.pairwise_cons]
      refine ⟨fun z hz => ?_, ih h.2⟩
      rcases List.mem_cons.mp ((insertAscending_perm x ys).mem_iff.mp hz) with rfl | hz
      · omega
      · exact h.1 z hz

/-- Sorting puts the samples in ascending order. -/
theorem sortAscending_pairwise (l : List Int) : (sortAscending l).Pairwise (· ≤ ·) := by
  induction l with
  | nil => exact List.Pairwise.nil
  | cons x xs ih => exact insertAscending_pairwise x ih

@[simp] theorem sortAscending_length (l : List Int) : (sortAscending l).length = l.length :=
  (sortAscending_perm l).length_eq

/-- The median of a non-empty history is one of its samples. -/
theorem median_mem {h : List Int} (hne : h ≠ []) : median h ∈ h := by
  have hlt : h.length / 2 < (sortAscending h).length := by
    have := List.length_pos_iff.mpr hne
    rw [sortAscending_length]; omega
  have hget : median h = (sortAscending h)[h.length / 2] := by
    simp [median, List.getD_eq_getElem?_getD, List.getElem?_eq_getElem hlt]
  rw [hget]
  exact (sortAscending_perm h).mem_iff.mp (List.getElem_mem hlt)

end Sys2Proof.Machine
end

