-- ==== Sys2Proof/Laws/Meanings.lean ====
section
/-! SUPPORT. One inversion lemma per meaning: everything it can have done when it answers a next state. Later proofs cite
these and do not unfold the meanings. -/

namespace Sys2Proof.Machine

theorem execCrc_next {p : List Byte} {s t : State} (h : execCrc p s = .next t) :
    t = s.emit (.bytes (le16 (crc16 p))) := by
  simpa [execCrc] using h.symm

theorem execIngest_next {now : Word} {p : List Byte} {s t : State} (h : execIngest now p s = .next t) :
    s.cur.toNat ≤ fbCap ∧
      ((s.roomFor p.length = 0 ∧ t = s.emit (.count 0)) ∨
        (0 < s.roomFor p.length ∧
          t = (s.storeBytes now (p.take (s.roomFor p.length))).emit (.count (s.roomFor p.length)))) := by
  unfold execIngest at h
  split at h
  · cases h
  · next hc =>
    split at h
    · next hk => exact ⟨by omega, .inl ⟨hk, by simpa using h.symm⟩⟩
    · next hk => exact ⟨by omega, .inr ⟨by omega, by simpa using h.symm⟩⟩

theorem execPoll_next {now : Word} {s t : State} (h : execPoll now s = .next t) :
    ((s.cur = 0 ∨ s.elapsed now ≤ tSilence) ∧ t = s.emit (.bytes [])) ∨
      (s.cur ≠ 0 ∧ tSilence < s.elapsed now ∧ s.cur.toNat ≤ fbCap ∧
        t = (s.clearFrame.transmit (process s s.frame)).emit (.bytes (process s s.frame))) := by
  unfold execPoll at h
  split at h
  · next hc => exact .inl ⟨hc, by simpa using h.symm⟩
  · next hc =>
    rw [not_or] at hc
    split at h
    · cases h
    · exact .inr ⟨hc.1, by omega, by omega, by simpa using h.symm⟩

theorem execProc_next {f : List Byte} {s t : State} (h : execProc f s = .next t) :
    f.length ≤ fbCap ∧ t = s.emit (.bytes (process s f)) := by
  unfold execProc at h
  split at h
  · cases h
  · exact ⟨by omega, by simpa using h.symm⟩

theorem execSample_next {r : Byte} {s t : State} (h : execSample r s = .next t) :
    (s.mode = .cal ∧ t = s.emit (.i32 s.est)) ∨
      (s.mode = .normal ∧ s.hlen.toNat ≤ histCap ∧
        t = ((s.storeHistory (s.appendSample r)).setEst
            (distanceWord (s.nextEstimate (s.raw (median ((s.appendSample r).map rssiOf)))))).emit
          (.i32 (distanceWord (s.nextEstimate (s.raw (median ((s.appendSample r).map rssiOf))))))) := by
  unfold execSample at h
  split at h
  · next hm => exact .inl ⟨hm, by simpa using h.symm⟩
  · next hm =>
    split at h
    · cases h
    · exact .inr ⟨hm, by omega, by simpa using h.symm⟩

theorem execDist_next {r : Byte} {s t : State} (h : execDist r s = .next t) :
    t = s.emit (.i32 (distanceWord (s.raw (rssiOf r)))) := by
  simpa [execDist] using h.symm

theorem execCalstart_next {s t : State} (h : execCalstart s = .next t) :
    (s.mode = .normal ∧ t = s.enterCal.emit (.bytes [])) ∨ (s.mode = .cal ∧ t = s.emit (.bytes [])) := by
  unfold execCalstart at h
  split at h
  · next hm => exact .inl ⟨hm, by simpa using h.symm⟩
  · next hm => exact .inr ⟨hm, by simpa using h.symm⟩

/-- The counters a CALPOLL in CAL mode stores. -/
def State.polled (s : State) (r : Byte) : State :=
  s.setCal s.pollTries (s.pollSum (rssiOf r)) (s.pollCnt (rssiOf r))

theorem execCalpoll_next {r : Byte} {s t : State} (h : execCalpoll r s = .next t) :
    (s.mode = .normal ∧ t = s.emit (.status .ignored)) ∨
      (s.mode = .cal ∧ (s.pollCnt (rssiOf r) = calN ∨ s.pollTries = calMax) ∧ 1 ≤ s.pollCnt (rssiOf r) ∧
        t = (((s.polled r).leaveCal true).setReference (s.pollSum (rssiOf r)) (s.pollCnt (rssiOf r))).emit
          (.status .doneOk)) ∨
      (s.mode = .cal ∧ s.pollTries = calMax ∧ s.pollCnt (rssiOf r) = 0 ∧
        t = ((s.polled r).leaveCal false).emit (.status .doneFail)) ∨
      (s.mode = .cal ∧ s.pollCnt (rssiOf r) ≠ calN ∧ s.pollTries ≠ calMax ∧
        t = (s.polled r).emit (.status .busy)) := by
  unfold execCalpoll at h
  split at h
  · next hm => exact .inl ⟨hm, by simpa using h.symm⟩
  · next hm =>
    simp only at h
    split at h
    · next he =>
      split at h
      · next hc => exact .inr (.inl ⟨hm, he, hc, by simpa [State.polled] using h.symm⟩)
      · next hc =>
        refine .inr (.inr (.inl ⟨hm, ?_, by omega, by simpa [State.polled] using h.symm⟩))
        rcases he with he | he
        · rw [he] at hc
          exact absurd (by decide) hc
        · exact he
    · next he =>
      rw [not_or] at he
      exact .inr (.inr (.inr ⟨hm, he.1, he.2, by simpa [State.polled] using h.symm⟩))

theorem execConn_next {s t : State} (h : execConn s = .next t) : t = (s.setActive true).emit (.bytes []) := by
  simpa [execConn] using h.symm

theorem execDisc_next {s t : State} (h : execDisc s = .next t) :
    (s.cfg.clrOnDisc = true ∧ t = (s.setActive false).clearEstimate.emit (.bytes [])) ∨
      (s.cfg.clrOnDisc = false ∧ t = (s.setActive false).emit (.bytes [])) := by
  unfold execDisc at h
  split at h
  · next hc => exact .inl ⟨hc, by simpa using h.symm⟩
  · next hc => exact .inr ⟨by simpa using hc, by simpa using h.symm⟩

theorem execRd_next {a : Word} {s t : State} (h : execRd a s = .next t) :
    rdMapped a = true ∧ t = s.emit (.u32 (s.register a.toNat)) := by
  unfold execRd at h
  split at h
  · next hm => exact ⟨hm, by simpa using h.symm⟩
  · cases h

theorem execMbReadHoldingRegisters_next {addr : Byte} {start count : Half} {extra : List Byte} {s t : State}
    (h : execMbReadHoldingRegisters addr start count extra s = .next t) :
    t = s.emit (.bytes (if addr = s.cfg.slaveAddr then readHolding s start count else [])) := by
  unfold execMbReadHoldingRegisters at h
  split at h
  · cases h
  · split at h
    · next ha => simpa [if_neg ha] using h.symm
    · next ha =>
      rw [not_not] at ha
      simpa [if_pos ha] using h.symm

theorem execMbReadHoldingRegistersResponse_next {start count : Half} {s t : State}
    (h : execMbReadHoldingRegistersResponse start count s = .next t) :
    endOff start count ≤ rbSize ∧ t = s.emit (.bytes (successResponse s start count)) := by
  unfold execMbReadHoldingRegistersResponse at h
  split at h
  · cases h
  · exact ⟨by omega, by simpa using h.symm⟩

theorem execMbExceptionIllegalDataAddress_next {s t : State} (h : execMbExceptionIllegalDataAddress s = .next t) :
    t = s.emit (.bytes (raiseIllegalDataAddress s fcRead)) := by
  simpa [execMbExceptionIllegalDataAddress] using h.symm

/-- Everything a step can have done when it answers a next state: nothing, with no command presented, or the decoded
command's operation. -/
theorem step_next {s t : State} (h : step s = .next t) :
    (s.inbox = [] ∧ t = s) ∨
      ∃ c rest i, s.inbox = c :: rest ∧ decodeCommand c = .ok i ∧ exec i (s.takeCommand rest) = .next t := by
  unfold step at h
  split at h
  · next hi => exact .inl ⟨hi, by simpa using h.symm⟩
  · next c rest hi =>
    split at h
    · next i hd => exact .inr ⟨c, rest, i, hi, hd, h⟩
    · cases h

end Sys2Proof.Machine
end

