-- ==== Sys2Proof/Tests/Slice0.lean ====
section
/-! SUPPORT. The model's own tests: ill-formed terms are refused, words written out from the spec's tables decode, each
instruction's worked example of the spec holds, and every hypothesis of a statement is met by a concrete state. The
expected values are the spec's (the rule stands in each comment), not the model's. -/

namespace Sys2Proof.Tests

open Sys2Proof Sys2Proof.Machine

set_option Elab.async false

/-- The reset state with register 1 set to 0; every other parameter at its default (R5, R33). -/
def s0 : State := State.resetWith { reg1Init := 0 }

/-- The same with CLR_ON_DISC = 1. -/
def s0clr : State := State.resetWith { reg1Init := 0, clrOnDisc := true }

/-- The request of R61's example: read one register from offset 0. -/
def readReg0 : List Byte := [0x01, 0x03, 0x00, 0x00, 0x00, 0x01, 0x84, 0x0A]

/-- The frame buffer after R104's example frame has arrived at 1020 ms. -/
def sFrame : State :=
  { s0 with
    fb := [⟨0, 0x01⟩, ⟨1, 0x03⟩, ⟨5, 0x01⟩, ⟨6, 0x84⟩, ⟨7, 0x0A⟩]
    cur := 8
    lastRx := 1020 }

/-- The history and estimate before the last SAMPLE of R160's example. -/
def sSampled : State :=
  { s0 with hist := #v[0xC5, 0xC5, 0xBA, 0xE2, 0xBF], hlen := 5, est := 100 }

/-- A calibration in progress: `sum`, `cnt` and `tries` in the counters. -/
def sCal (sum : Int) (cnt tries : Nat) : State :=
  { s0 with
    mode := .cal, calSum := BitVec.ofInt 12 sum, calCnt := BitVec.ofNat 4 cnt, calTries := BitVec.ofNat 5 tries }

/-- The state an outcome goes on with, the given one if it stops. -/
def goesTo (o : Host.Outcome State Fault Refusal) (dflt : State) : State :=
  match o with
  | .next t => t
  | .fault _ => dflt
  | .refused _ => dflt

/-- The results after an outcome; none if it stops. -/
def resultsOf (o : Host.Outcome State Fault Refusal) : List Result :=
  match o with
  | .next t => t.results
  | .fault _ => []
  | .refused _ => []

/-- The outcome is a next state of which `p` holds. -/
def nextIs (o : Host.Outcome State Fault Refusal) (p : State → Bool) : Bool :=
  match o with
  | .next t => p t
  | .fault _ => false
  | .refused _ => false

theorem of_nextIs {o : Host.Outcome State Fault Refusal} {p : State → Bool} (h : nextIs o p = true) :
    ∃ t, o = .next t ∧ p t = true := by
  cases o with
  | next t => exact ⟨t, rfl, h⟩
  | fault _ => exact absurd h Bool.false_ne_true
  | refused _ => exact absurd h Bool.false_ne_true

/-- How an outcome stops, none for a next state. -/
def stopOf (o : Host.Outcome State Fault Refusal) : Option (Fault ⊕ Refusal) :=
  match o with
  | .next _ => none
  | .fault f => some (.inl f)
  | .refused r => some (.inr r)

/-! ## Ill-formed terms are refused, and the bounds themselves are allowed (R6, R62, R70, R72, R120) -/

theorem test_wf_crc (p : List Byte) (h : 65535 < p.length) : (Instr.crc p).wellFormed = false :=
  decide_eq_false (Nat.not_le.2 h)

theorem test_wf_crc_bound (p : List Byte) (h : p.length ≤ 65535) : (Instr.crc p).wellFormed = true :=
  decide_eq_true h

theorem test_wf_ingest (p : List Byte) (h : 65535 < p.length) : (Instr.ingest 0 p).wellFormed = false :=
  decide_eq_false (Nat.not_le.2 h)

theorem test_wf_proc : (Instr.proc (List.replicate 65 0)).wellFormed = false := by decide

theorem test_wf_proc_bound : (Instr.proc (List.replicate 64 0)).wellFormed = true := by decide

theorem test_wf_rd : [0x01, 0x02, 0x20, 0x3C, 0x3F, 0x94, 0x100, 0xFFFFFFFF].map
    (fun a : Word => (Instr.rd a).wellFormed) = List.replicate 8 false := by decide

theorem test_wf_rd_bounds : [0x00, 0x1C, 0x40, 0x7F, 0x80, 0x93].map
    (fun a : Word => (Instr.rd a).wellFormed) = List.replicate 6 true := by decide

theorem test_wf_request : (Instr.mbReadHoldingRegisters 1 0 0 (List.replicate 57 0)).wellFormed = false := by decide

theorem test_wf_request_bound : (Instr.mbReadHoldingRegisters 1 0 0 (List.replicate 56 0)).wellFormed = true := by decide

theorem test_wf_response : (Instr.mbReadHoldingRegistersResponse 10 1).wellFormed = false := by decide

/-- `0x8000 + 0x8000` registers do not alias into the bank (R127). -/
theorem test_wf_response_wrap : (Instr.mbReadHoldingRegistersResponse 0x8000 0x8000).wellFormed = false := by decide

theorem test_wf_response_bound : (Instr.mbReadHoldingRegistersResponse 10 0).wellFormed = true := by decide

theorem test_wf_response_data : (Response.data 1 (List.replicate 21 0)).wellFormed = false := by decide

/-! ## Words written out from the tables of R61, R62, R63, R70 and R71 -/

theorem test_decode_crc : decodeCommand ⟨0x01, 0, [0x01, 0x03]⟩ = .ok (.crc [0x01, 0x03]) := by decide
theorem test_decode_ingest : decodeCommand ⟨0x02, 1000, [0xAA]⟩ = .ok (.ingest 1000 [0xAA]) := by decide
theorem test_decode_poll : decodeCommand ⟨0x03, 0xFFFFFFFF, []⟩ = .ok (.poll 0xFFFFFFFF) := by decide
theorem test_decode_proc : decodeCommand ⟨0x04, 0, [0x01]⟩ = .ok (.proc [0x01]) := by decide
/-- `sext_8(0xC5) = -59` (R71). -/
theorem test_decode_sample : decodeCommand ⟨0x05, 0x000000C5, []⟩ = .ok (.sample (BitVec.ofInt 8 (-59))) := by decide
theorem test_decode_dist : decodeCommand ⟨0x06, 0x00000080, []⟩ = .ok (.dist (BitVec.ofInt 8 (-128))) := by decide
theorem test_decode_calstart : decodeCommand ⟨0x07, 0, []⟩ = .ok .calstart := by decide
theorem test_decode_calpoll : decodeCommand ⟨0x08, 0x0000007F, []⟩ = .ok (.calpoll 127) := by decide
theorem test_decode_conn : decodeCommand ⟨0x09, 0, []⟩ = .ok .conn := by decide
theorem test_decode_disc : decodeCommand ⟨0x0A, 0, []⟩ = .ok .disc := by decide
theorem test_decode_rd : decodeCommand ⟨0x0B, 0x80, []⟩ = .ok (.rd 0x80) := by decide

/-- R127's example: start 9, count 2. -/
theorem test_decode_request :
    decodeRequest [0x01, 0x03, 0x00, 0x09, 0x00, 0x02, 0x14, 0x09] = .ok (.mbReadHoldingRegisters 1 9 2 []) := by
  decide +kernel

/-- R128's example. -/
theorem test_decode_response :
    decodeResponse 0 1 [0x01, 0x03, 0x02, 0x04, 0xD2, 0x3A, 0xD9] = .ok (.mbReadHoldingRegistersResponse 0 1) := by
  decide +kernel

/-- R129's example. -/
theorem test_decode_exception :
    decodeResponse 9 2 [0x01, 0x83, 0x02, 0xC0, 0xF1] = .ok .mbExceptionIllegalDataAddress := by decide +kernel

/-- R72: reserved op codes, and the first one after the table. -/
theorem test_reserved_ops : [0x00, 0x0C, 0x83, 0xFF].map (fun op : Byte => decodeCommand ⟨op, 0, []⟩)
    = [0x00, 0x0C, 0x83, 0xFF].map (fun op : Byte => .rejected (.reservedOp op)) := by decide

/-- R72: a field that must be 0, a payload that must be empty, a frame above 64 bytes, an unmapped address. -/
theorem test_reserved_fields :
    [decodeCommand ⟨0x01, 1, []⟩, decodeCommand ⟨0x05, 0x00000100, []⟩, decodeCommand ⟨0x03, 0, [0x00]⟩,
      decodeCommand ⟨0x04, 0, List.replicate 65 0⟩, decodeCommand ⟨0x0B, 0x94, []⟩]
    = [.rejected .argNotZero, .rejected .argNotZero, .rejected .payloadNotEmpty, .rejected .frameTooLong,
      .rejected (.reservedAddress 0x94)] := by decide

/-- R70: a payload of 65535 bytes is a command, one of 65536 is none, for CRC and INGEST. -/
theorem test_payload_bound (now : Word) (p : List Byte) :
    (p.length = 65535 → decodeCommand ⟨0x01, 0, p⟩ = .ok (.crc p) ∧ decodeCommand ⟨0x02, now, p⟩ = .ok (.ingest now p)) ∧
    (p.length = 65536 → decodeCommand ⟨0x01, 0, p⟩ = .rejected .payloadTooLong ∧
      decodeCommand ⟨0x02, now, p⟩ = .rejected .payloadTooLong) :=
  ⟨fun h => ⟨if_pos (Nat.le_of_eq h), if_pos (Nat.le_of_eq h)⟩,
    fun h => ⟨if_neg (Nat.not_le.2 (Nat.lt_of_lt_of_eq (by decide : 65535 < 65536) h.symm)),
      if_neg (Nat.not_le.2 (Nat.lt_of_lt_of_eq (by decide : 65535 < 65536) h.symm))⟩⟩

/-- R130's example is a valid frame of another function code. -/
theorem test_other_function :
    decodeRequest [0x01, 0x06, 0x00, 0x00, 0x00, 0x01, 0x48, 0x0A] = .rejected (.unimplementedFunction 0x06) := by
  decide +kernel

/-- The table's words, with operands in bits 39 to 8. -/
theorem test_table_words :
    [decodeTableWord 8 0x01, decodeTableWord 40 0xC505, decodeTableWord 8 0x0B, decodeTableWord 8 0x0C]
    = [some (.crc []), some (.sample 0xC5), some (.rd 0), none] := by decide

/-- The very next step runs the word's command. -/
theorem test_fetch_word : nextIs (step (s0.withFetchWord 8 0x09)) (fun t => t.active && decide (t.inbox = [])) = true := by
  decide +kernel

/-! ## Worked examples of the spec -/

/-- R93: the empty sequence and the example. -/
theorem test_crc_example : [crc16 [], crc16 [0xFF], crc16 [0x01, 0x03, 0x00, 0x00, 0x00, 0x01]]
    = [0xFFFF, 0x00FF, 0x0A84] := by decide +kernel

/-- 95 V-C7: the check value of "123456789". -/
theorem test_crc_check_value : resultsOf (exec (.crc [0x31, 0x32, 0x33, 0x34, 0x35, 0x36, 0x37, 0x38, 0x39]) s0)
    = [.bytes [0x37, 0x4B]] := by decide +kernel

/-- R101: the example. -/
theorem test_ingest_example :
    let t := goesTo (exec (.ingest 1000 [0x01, 0x03, 0x00]) s0) s0
    t.frame = [0x01, 0x03, 0x00] ∧ t.cur = 3 ∧ t.lastRx = 1000 ∧ t.results = [.count 3] := by decide +kernel

/-- R101: a full buffer takes nothing and keeps its timestamp. -/
theorem test_ingest_full :
    let t := goesTo (exec (.ingest 1000 [0xAA]) { s0 with cur := 64 }) s0
    t.cur = 64 ∧ t.lastRx = 0 ∧ t.results = [.count 0] := by decide +kernel

/-- R104: 32 ms do not dispatch. -/
theorem test_poll_at_32 : resultsOf (exec (.poll 1052) sFrame) = [.bytes []] := by decide +kernel

/-- R104: 33 ms do, and the counter may wrap in between (R103). -/
theorem test_poll_at_33 :
    let t := goesTo (exec (.poll 1053) sFrame) s0
    t.tx = [0x01, 0x03, 0x02, 0x04, 0xD2, 0x3A, 0xD9] ∧ t.cur = 0 ∧ t.results = [.bytes t.tx] ∧
      (goesTo (exec (.poll 5) { sFrame with lastRx := 0xFFFFFFF0 }) s0).cur = 8 := by decide +kernel

/-- R121: the example. -/
theorem test_proc_example : resultsOf (exec (.proc readReg0) s0)
    = [.bytes [0x01, 0x03, 0x02, 0x04, 0xD2, 0x3A, 0xD9]] := by decide +kernel

/-- R122: a well-formed 7-byte frame gets no response. -/
theorem test_proc_short : resultsOf (exec (.proc [0x01, 0x03, 0x02, 0x04, 0xD2, 0x3A, 0xD9]) s0) = [.bytes []] := by
  decide +kernel

/-- R160: the last SAMPLE of the example, `SAMPLE -65 -> 115`. -/
theorem test_sample_example :
    let t := goesTo (exec (.sample 0xBF) sSampled) s0
    t.est = 115 ∧ t.hist = #v[0xC5, 0xBA, 0xE2, 0xBF, 0xBF] ∧ t.results = [.i32 115] := by decide +kernel

/-- R160: an invalid median is blended as -100; EST 17 becomes -6. -/
theorem test_sample_blend : resultsOf (exec (.sample 0x00) { s0 with est := 17 }) = [.i32 0xFFFFFFFA] := by
  decide +kernel

/-- R155: `DIST -70 -> 275`. -/
theorem test_dist_example : resultsOf (exec (.dist 0xBA) s0) = [.i32 275] := by decide +kernel

/-- R155, R183: `DIST 0 -> -100`, and `DIST -70 -> 223` under the calibrated reference. -/
theorem test_dist_reference : resultsOf (exec (.dist 0x00) s0) = [.i32 0xFFFFFF9C] ∧
    resultsOf (exec (.dist 0xBA) { s0 with refSum := BitVec.ofInt 12 (-613), refCnt := 10 }) = [.i32 223] := by
  decide +kernel

/-- R181: after CALSTART from reset STATUS reads 0x00000002. -/
theorem test_calstart_example : (goesTo (exec .calstart s0) s0).statusWord = 0x00000002 := by decide +kernel

/-- R181: a second CALSTART clears nothing. -/
theorem test_calstart_again : (goesTo (exec .calstart (sCal (-60) 1 2)) s0).calTries = 2 := by decide +kernel

/-- R182: the example, CAL = (-60, 1, 1). -/
theorem test_calpoll_example :
    let t := goesTo (exec (.calpoll 0xC4) (sCal 0 0 0)) s0
    t.calSum.toInt = -60 ∧ t.calCnt = 1 ∧ t.calTries = 1 ∧ t.mode = .cal ∧ t.results = [.status .busy] := by
  decide +kernel

/-- R183: the tenth valid reading of the example gives the reference -613 over 10. -/
theorem test_calpoll_done :
    let t := goesTo (exec (.calpoll 0xC3) (sCal (-552) 9 9)) s0
    t.refSum.toInt = -613 ∧ t.refCnt = 10 ∧ t.mode = .normal ∧ t.calOk = true ∧ t.results = [.status .doneOk] := by
  decide +kernel

/-- R187. -/
theorem test_conn : (goesTo (exec .conn s0) s0).active = true := by decide +kernel

/-- R188: the example with CLR_ON_DISC = 1. -/
theorem test_disc_clears :
    let t := goesTo (exec .disc { s0clr with hlen := 3, est := 100, active := true }) s0
    t.active = false ∧ t.hlen = 0 ∧ t.est.toInt = -100 := by decide +kernel

/-- R188: the default retains. -/
theorem test_disc_retains :
    let t := goesTo (exec .disc { s0 with hlen := 3, est := 100, active := true }) s0
    t.active = false ∧ t.hlen = 3 ∧ t.est = 100 := by decide +kernel

/-- R30: the example after reset. -/
theorem test_rd_reset : [0x00, 0x08, 0x0C, 0x80, 0x81].map (fun a : Word => resultsOf (exec (.rd a) s0))
    = [[.u32 0], [.u32 0xFFFFFF9C], [.u32 0x00001FC5], [.u32 0x04], [.u32 0xD2]] := by decide +kernel

/-- R30: STATUS, HIST_LO and HIST_HI by their bit positions. -/
theorem test_rd_fields : [0x00, 0x14, 0x18].map (fun a : Word => resultsOf (exec (.rd a)
      { s0 with active := true, cur := 64, hlen := 5, est := 0, hist := #v[0xC5, 0xC4, 0xC3, 0xC2, 0xC1] }))
    = [[.u32 0x00002C09], [.u32 0xC2C3C4C5], [.u32 0x000000C1]] := by decide +kernel

/-- R127: `01 03 00 09 00 02` leaves the bank by two bytes. -/
theorem test_request_exception : resultsOf (exec (.mbReadHoldingRegisters 1 9 2 []) s0)
    = [.bytes [0x01, 0x83, 0x02, 0xC0, 0xF1]] := by decide +kernel

/-- R127: 0x8000 registers from 0x8000 do not wrap; R123: another address is ignored. -/
theorem test_request_edges : resultsOf (exec (.mbReadHoldingRegisters 1 0x8000 0x8000 []) s0)
      = [.bytes [0x01, 0x83, 0x02, 0xC0, 0xF1]] ∧
    resultsOf (exec (.mbReadHoldingRegisters 0 0 1 []) s0) = [.bytes []] := by decide +kernel

/-- R128: one register from 0, and the empty slice. -/
theorem test_success_response : resultsOf (exec (.mbReadHoldingRegistersResponse 0 1) s0)
      = [.bytes [0x01, 0x03, 0x02, 0x04, 0xD2, 0x3A, 0xD9]] ∧
    resultsOf (exec (.mbReadHoldingRegistersResponse 10 0) s0) = [.bytes [0x01, 0x03, 0x00, 0x20, 0xF0]] := by
  decide +kernel

/-- R129. -/
theorem test_exception_response : resultsOf (exec .mbExceptionIllegalDataAddress s0)
    = [.bytes [0x01, 0x83, 0x02, 0xC0, 0xF1]] := by decide +kernel

/-! ## Witnesses: each statement's hypotheses are met -/

theorem witness_step_ok : ({ s0 with inbox := [⟨0x09, 0, []⟩] } : State).inbox = ⟨0x09, 0, []⟩ :: [] ∧
    decodeCommand ⟨0x09, 0, []⟩ = .ok .conn := by decide
theorem witness_step_rejected : ({ s0 with inbox := [⟨0x0C, 0, []⟩] } : State).inbox = ⟨0x0C, 0, []⟩ :: [] ∧
    decodeCommand ⟨0x0C, 0, []⟩ = .rejected (.reservedOp 0x0C) := by decide
theorem witness_step_idle : s0.inbox = [] := rfl

/-- RefusedCommandsAreThoseOfTheTable: the last op code and the first reserved one, the last address and the next. -/
theorem witness_refused :
    [step { s0 with inbox := [⟨0x0B, 0x93, []⟩] }, step { s0 with inbox := [⟨0x0B, 0x94, []⟩] },
      step { s0 with inbox := [⟨0x0C, 0, []⟩] }, step { s0 with inbox := [⟨0x05, 0x100, []⟩] }].map stopOf
    = [none, some (.inr (.rejected (.reservedAddress 0x94))), some (.inr (.rejected (.reservedOp 0x0C))),
      some (.inr (.rejected .argNotZero))] := by decide +kernel

/-- RefusedCommandsAreThoseOfTheTable: the payload bound, with payloads of zeros. -/
theorem witness_payload_bound :
    decodeCommand ⟨0x01, 0, List.replicate 65535 0⟩ = .ok (.crc (List.replicate 65535 0)) ∧
    decodeCommand ⟨0x01, 0, List.replicate 65536 0⟩ = .rejected .payloadTooLong ∧
    decodeCommand ⟨0x02, 7, List.replicate 65535 0⟩ = .ok (.ingest 7 (List.replicate 65535 0)) ∧
    decodeCommand ⟨0x02, 7, List.replicate 65536 0⟩ = .rejected .payloadTooLong :=
  have short := (test_payload_bound 7 (List.replicate 65535 0)).1 List.length_replicate
  have long := (test_payload_bound 7 (List.replicate 65536 0)).2 List.length_replicate
  ⟨short.1, long.1, short.2, long.2⟩

theorem witness_encode_command : (Instr.sample 0x80).wellFormed = true ∧
    encode (.sample 0x80) = some (.command ⟨0x05, 0x00000080, []⟩) ∧
    decode (.command ⟨0x05, 0x00000080, []⟩) = .ok (.sample 0x80) := by decide
theorem witness_encode_request : (Instr.mbReadHoldingRegisters 1 0 1 []).wellFormed = true ∧
    encode (.mbReadHoldingRegisters 1 0 1 []) = some (.request readReg0) ∧
    decode (.request readReg0) = .ok (.mbReadHoldingRegisters 1 0 1 []) := by decide +kernel
theorem witness_response_frames : (Response.data 1 (List.replicate 20 0)).wellFormed = true ∧
    (Response.illegalDataAddress 1).wellFormed = true ∧
    (List.replicate 20 (0 : Byte)).length = 2 * (10 : Half).toNat := by decide

/-- CorruptedByteGivesNoResponse: the first, a middle and the last byte of a valid frame. -/
theorem witness_corrupted : 8 ≤ readReg0.length ∧ readReg0.length ≤ 64 ∧ readReg0.getD 0 0 = s0.cfg.slaveAddr ∧
    crcMatches readReg0 = true ∧ (0x00 : Byte) ≠ readReg0.getD 0 0 ∧ (0x02 : Byte) ≠ readReg0.getD 1 0 ∧
    (0x0B : Byte) ≠ readReg0.getD 7 0 := by decide +kernel

theorem witness_ingest : ({ s0 with cur := 64 } : State).cur.toNat ≤ 64 ∧ Memory.wf fbReset 64 sFrame.fb = true := by
  decide
theorem witness_illegal_cursor :
    [exec (.ingest 0 []) { s0 with cur := 65 }, exec (.poll 33) { s0 with cur := 65 },
      exec (.poll 32) { s0 with cur := 65 }].map stopOf
    = [some (.inl .cursorOutOfRange), some (.inl .cursorOutOfRange), none] := by decide +kernel
theorem witness_poll : sFrame.cur.toNat ≤ 64 ∧ sFrame.cur ≠ 0 ∧
    (((1053 : Word).toNat : Int) - sFrame.lastRx.toNat) % 4294967296 > 32 := by decide

/-- Two chunks of R61's example, with polls at and below the threshold. -/
def chunks : List Arrival := [⟨1000, [0x01, 0x03, 0x00], [1000, 1032]⟩, ⟨1020, [0x00, 0x00, 0x01, 0x84, 0x0A], [1020]⟩]

/-- ChunksAssembleIntoOneFrame, with `as` the first chunk and `last` the second. -/
theorem witness_chunks : s0.cur = 0 ∧ (∀ a ∈ chunks, a.bytes ≠ [] ∧ ∀ p ∈ a.polls, (p - a.now).toNat ≤ 32) ∧
    (chunks.flatMap Arrival.bytes).length ≤ 64 ∧ 32 < ((1053 : Word) - 1020).toNat := by
  refine ⟨by decide, ?_, by decide, by decide⟩
  simp [chunks]
theorem witness_wire_inv : s0.WireInv := ⟨by decide, by decide, by decide, fun _ _ => rfl⟩

/-- ProcAnswersByTheOutcomeTable: a frame for each row of R133. -/
theorem witness_proc_rows :
    [[], [0x01, 0x03, 0x02, 0x04, 0xD2, 0x3A, 0xD9], (0x02 : Byte) :: readReg0.drop 1, readReg0.set 7 0x0B,
      [0x01, 0x06, 0x00, 0x00, 0x00, 0x01, 0x48, 0x0A], readReg0,
      [0x01, 0x03, 0x00, 0x09, 0x00, 0x02, 0x14, 0x09]].map (process s0)
    = [[], [], [], [], [], [0x01, 0x03, 0x02, 0x04, 0xD2, 0x3A, 0xD9], [0x01, 0x83, 0x02, 0xC0, 0xF1]] := by
  decide +kernel
theorem witness_proc_long : 64 < (List.replicate 65 (0 : Byte)).length := by decide
theorem witness_dependence : s0.cfg.slaveAddr = sSampled.cfg.slaveAddr ∧ s0 ≠ sSampled ∧
    ∀ i < 20, s0.rbByte i = sSampled.rbByte i := by decide +kernel
theorem witness_request_length : 8 + (List.replicate 56 (0 : Byte)).length ≤ 64 := by decide
theorem witness_success_range : 2 * (0 : Half).toNat + 2 * (10 : Half).toNat ≤ 20 ∧
    2 * (10 : Half).toNat + 2 * (0 : Half).toNat ≤ 20 ∧ 20 < 2 * (10 : Half).toNat + 2 * (1 : Half).toNat := by decide
theorem witness_exception_address : s0.cfg.slaveAddr = 0x01 := rfl

/-- RawDistanceIsTheNearestInteger, RawDistanceIsLeastOfTheInequality, RawDistanceIsMonotone and
RawDistanceTableForResetReference: the last valid reading and the first invalid one, two references. -/
theorem witness_raw : 0 < s0.cfg.nNum ∧ 0 < 1 ∧ (0 : Int) ≤ 0 ∧ (-1 : Int) < 0 ∧ (-2 : Int) ≤ -1 ∧
    (-613 : Int) * 10 ≤ -59 * 10 ∧ s0.cfg.DefaultExponent := by decide
theorem witness_raw_range : s0.ReferenceInv ∧ s0.cfg.DefaultExponent ∧ (0x80 : Byte).toInt < 0 ∧
    ({ s0 with refSum := BitVec.ofInt 12 (-1) } : State).ReferenceInv ∧
    ({ s0 with refSum := BitVec.ofInt 12 (-1280), refCnt := 10 } : State).ReferenceInv := by decide +kernel
theorem witness_median : ([-59, -70] : List Int) ≠ [] ∧ median [-59, -70] = -59 := by decide
theorem witness_convergence : |(1000 : Int) - 100| ≤ ((900 : Nat) : Int) := by decide

theorem witness_sample_modes : (sCal 0 0 0).mode = .cal ∧ s0.mode = .normal ∧ s0.hlen.toNat ≤ 5 ∧
    sSampled.hlen.toNat ≤ 5 ∧ sSampled.hlen = 5 := by decide
theorem witness_illegal_history :
    [exec (.sample 0) { s0 with hlen := 6 }, exec (.sample 0) { s0 with hlen := 6, mode := .cal }].map stopOf
    = [some (.inl .historyOutOfRange), none] := by decide +kernel
theorem witness_dist_fits : -2147483648 ≤ s0.raw (-128) ∧ s0.raw (-128) ≤ 2147483647 := by decide +kernel
theorem witness_valid_estimate : s0.Inv ∧ s0.cfg.DefaultExponent ∧ s0.mode = .normal ∧
    median ((s0.appendSample 0xC5).map BitVec.toInt) < 0 ∧ nextIs (exec (.sample 0xC5) s0) (fun _ => true) = true := by
  decide +kernel

theorem witness_calstart : s0.mode = .normal ∧ (sCal (-60) 1 2).mode = .cal := by decide

/-- CalpollCountsAndEnds: IGNORED; BUSY; the tenth valid reading; the twentieth poll with the one valid reading, with no
valid reading, and with the tenth. -/
theorem witness_calpoll : s0.mode = .normal ∧ (sCal (-60) 1 1).CalibrationInv ∧ (sCal (-552) 9 9).CalibrationInv ∧
    (sCal 0 0 19).CalibrationInv ∧ (sCal (-1152) 9 19).CalibrationInv ∧
    resultsOf (exec (.calpoll 0xC4) (sCal (-60) 1 1)) = [.status .busy] ∧
    resultsOf (exec (.calpoll 0xC4) (sCal 0 0 19)) = [.status .doneOk] ∧
    resultsOf (exec (.calpoll 0x00) (sCal 0 0 19)) = [.status .doneFail] ∧
    resultsOf (exec (.calpoll 0x80) (sCal (-1152) 9 19)) = [.status .doneOk] := by decide +kernel
theorem witness_calibration_ends : s0.CalibrationInv ∧ (List.replicate 20 (0 : Byte)).length = 20 := by decide +kernel
theorem witness_disc : s0.cfg.clrOnDisc = false ∧ s0clr.cfg.clrOnDisc = true := by decide
theorem witness_rd : rdMapped 0x93 = true ∧ rdMapped 0x94 = false ∧ rdMapped 0x40 = true ∧ rdMapped 0x3F = false := by
  decide

theorem witness_legal_config : s0.cfg.WellFormed ∧ s0clr.cfg.WellFormed := by decide
theorem witness_inv : s0.Inv := by decide +kernel
theorem witness_inv_frame : sFrame.Inv := by decide +kernel
theorem witness_inv_sampled : sSampled.Inv := by decide +kernel
theorem witness_inv_cal : (sCal (-552) 9 9).Inv := by decide +kernel
theorem witness_step_next : ({ s0 with inbox := [⟨0x07, 0, []⟩] } : State).Inv ∧
    nextIs (step { s0 with inbox := [⟨0x07, 0, []⟩] }) (fun t => decide (t.mode = .cal)) = true := by decide +kernel
theorem witness_reachable : ∃ t, Reachable { reg1Init := 0 } t ∧ t.active = true := by
  obtain ⟨t, h, ha⟩ := of_nextIs (o := runSteps 1 { s0 with inbox := [⟨0x09, 0, []⟩] }) (p := fun t => t.active)
    (by decide +kernel)
  exact ⟨t, ⟨_, _, h⟩, ha⟩
theorem witness_complete : s0.Inv ∧ (Instr.proc readReg0).wellFormed = true := by decide +kernel

/-- The statements about every operation that answers a next state: one that transmits, one of each writer, both mode
changes, both sides. -/
theorem witness_next :
    nextIs (exec (.poll 1053) sFrame) (fun t => decide (t.tx ≠ sFrame.tx ∧ t.cur.toNat < sFrame.cur.toNat)) = true ∧
    nextIs (exec (.ingest 7 [0xAA]) s0) (fun t => decide (t.fb ≠ s0.fb ∧ t.lastRx ≠ s0.lastRx)) = true ∧
    nextIs (exec (.sample 0xC5) s0) (fun t => decide (t.hist ≠ s0.hist ∧ t.est ≠ s0.est)) = true ∧
    nextIs (exec .calstart s0) (fun t => decide (t.mode = .cal)) = true ∧
    nextIs (exec (.calpoll 0xC3) (sCal (-552) 9 9)) (fun t => decide (t.mode = .normal ∧ t.refSum ≠ s0.refSum)) = true ∧
    nextIs (exec .disc { s0clr with hlen := 3, active := true }) (fun t => decide (t.hlen = 0 ∧ t.active = false)) = true := by
  decide +kernel
theorem witness_mode_change : Instr.conn ≠ .calstart ∧ (∀ r, Instr.conn ≠ .sample r) ∧ (∀ r, Instr.conn ≠ .calpoll r) ∧
    Instr.conn ≠ .rd 0x00 ∧ ∃ t, exec .conn s0 = .next t := by
  exact ⟨by decide, fun r => by simp, fun r => by simp, by decide, ⟨_, rfl⟩⟩

/-- SidesDoNotReadEachOther and WireAndWirelessOperationsCommute: states that differ on the other side only. -/
theorem witness_sides : s0.cfg = sSampled.cfg ∧ SameWire s0 sSampled ∧ SameWireless s0 sFrame ∧
    s0 ≠ sSampled ∧ s0 ≠ sFrame ∧ wireSide (.poll 1053) = true ∧ wirelessSide (.sample 0xC5) = true :=
  ⟨rfl, ⟨rfl, rfl, rfl, rfl, rfl⟩, ⟨rfl, rfl, rfl, rfl, rfl, rfl, rfl, rfl, rfl, rfl, rfl⟩, by decide +kernel,
    by decide +kernel, rfl, rfl⟩
theorem witness_commute : nextIs (exec (.poll 1053) sFrame) (fun t => nextIs (exec (.sample 0xC5) t) fun _ => true) = true := by
  decide +kernel

end Sys2Proof.Tests
end

/-! The proofs of the family 10_state.md. What an instruction can have done is said once (`Effect`, `exec_next`); the
bounds of R31 and the ownership rules of R32 are read off it. -/

namespace Sys2Proof.Machine

/-! ### What an operation can have done -/

/-- The estimate a SAMPLE of `b` stores in NORMAL mode (R160). -/
def State.sampledEst (s : State) (b : Byte) : Word :=
  distanceWord (s.nextEstimate (s.raw (median ((s.appendSample b).map rssiOf))))

/-- `Effect s i u r`: run in `s`, the instruction `i` may turn `s` into `u` and then return `r`. One constructor per
way to write state; all that only return a result are `unchanged`. -/
inductive Effect (s : State) : Instr → State → Result → Prop
  | unchanged (i : Instr) (r : Result) : Effect s i s r
  | stored (now : Word) (p : List Byte) (hcur : s.cur.toNat ≤ fbCap) (hroom : 0 < s.roomFor p.length) :
      Effect s (.ingest now p) (s.storeBytes now (p.take (s.roomFor p.length))) (.count (s.roomFor p.length))
  | dispatched (now : Word) (hcur : s.cur ≠ 0) (hsilence : tSilence < s.elapsed now) :
      Effect s (.poll now) (s.clearFrame.transmit (process s s.frame)) (.bytes (process s s.frame))
  | sampled (b : Byte) (hmode : s.mode = .normal) (hlen : s.hlen.toNat ≤ histCap) :
      Effect s (.sample b) ((s.storeHistory (s.appendSample b)).setEst (s.sampledEst b)) (.i32 (s.sampledEst b))
  | calStarted (hmode : s.mode = .normal) : Effect s .calstart s.enterCal (.bytes [])
  | calDone (b : Byte) (hmode : s.mode = .cal) (hend : s.pollCnt (rssiOf b) = calN ∨ s.pollTries = calMax)
      (hcnt : 1 ≤ s.pollCnt (rssiOf b)) :
      Effect s (.calpoll b)
        (((s.polled b).leaveCal true).setReference (s.pollSum (rssiOf b)) (s.pollCnt (rssiOf b))) (.status .doneOk)
  | calFailed (b : Byte) (hmode : s.mode = .cal) (htries : s.pollTries = calMax) (hcnt : s.pollCnt (rssiOf b) = 0) :
      Effect s (.calpoll b) ((s.polled b).leaveCal false) (.status .doneFail)
  | calBusy (b : Byte) (hmode : s.mode = .cal) (hcnt : s.pollCnt (rssiOf b) ≠ calN) (htries : s.pollTries ≠ calMax) :
      Effect s (.calpoll b) (s.polled b) (.status .busy)
  | connected : Effect s .conn (s.setActive true) (.bytes [])
  | disconnected : Effect s .disc (s.setActive false) (.bytes [])
  | cleared (hclr : s.cfg.clrOnDisc = true) : Effect s .disc (s.setActive false).clearEstimate (.bytes [])

/-- Everything an instruction can have done when it answers a next state: one effect, then one result. -/
theorem exec_next {i : Instr} {s t : State} (h : exec i s = .next t) :
    ∃ u r, Effect s i u r ∧ t = u.emit r := by
  cases i with
  | crc p => exact ⟨s, _, .unchanged _ _, execCrc_next h⟩
  | ingest now p =>
    obtain ⟨hcur, ⟨-, ht⟩ | ⟨hroom, ht⟩⟩ := execIngest_next h
    · exact ⟨s, _, .unchanged _ _, ht⟩
    · exact ⟨_, _, .stored now p hcur hroom, ht⟩
  | poll now =>
    obtain ⟨-, ht⟩ | ⟨hcur, hsilence, -, ht⟩ := execPoll_next h
    · exact ⟨s, _, .unchanged _ _, ht⟩
    · exact ⟨_, _, .dispatched now hcur hsilence, ht⟩
  | proc f => exact ⟨s, _, .unchanged _ _, (execProc_next h).2⟩
  | sample b =>
    obtain ⟨-, ht⟩ | ⟨hmode, hlen, ht⟩ := execSample_next h
    · exact ⟨s, _, .unchanged _ _, ht⟩
    · exact ⟨_, _, .sampled b hmode hlen, ht⟩
  | dist b => exact ⟨s, _, .unchanged _ _, execDist_next h⟩
  | calstart =>
    obtain ⟨hmode, ht⟩ | ⟨-, ht⟩ := execCalstart_next h
    · exact ⟨_, _, .calStarted hmode, ht⟩
    · exact ⟨s, _, .unchanged _ _, ht⟩
  | calpoll b =>
    obtain ⟨-, ht⟩ | ⟨hmode, hend, hcnt, ht⟩ | ⟨hmode, htries, hcnt, ht⟩ | ⟨hmode, hcnt, htries, ht⟩ :=
      execCalpoll_next h
    · exact ⟨s, _, .unchanged _ _, ht⟩
    · exact ⟨_, _, .calDone b hmode hend hcnt, ht⟩
    · exact ⟨_, _, .calFailed b hmode htries hcnt, ht⟩
    · exact ⟨_, _, .calBusy b hmode hcnt htries, ht⟩
  | conn => exact ⟨_, _, .connected, execConn_next h⟩
  | disc =>
    obtain ⟨hclr, ht⟩ | ⟨-, ht⟩ := execDisc_next h
    · exact ⟨_, _, .cleared hclr, ht⟩
    · exact ⟨_, _, .disconnected, ht⟩
  | rd a => exact ⟨s, _, .unchanged _ _, (execRd_next h).2⟩
  | mbReadHoldingRegisters addr start count extra =>
    exact ⟨s, _, .unchanged _ _, execMbReadHoldingRegisters_next h⟩
  | mbReadHoldingRegistersResponse start count =>
    exact ⟨s, _, .unchanged _ _, (execMbReadHoldingRegistersResponse_next h).2⟩
  | mbExceptionIllegalDataAddress => exact ⟨s, _, .unchanged _ _, execMbExceptionIllegalDataAddress_next h⟩

/-! ### The bounds of R31, part by part -/

/-- No effect writes the configuration or the register bank. -/
theorem Effect.cfg_rb {s u : State} {i : Instr} {r : Result} (h : Effect s i u r) : u.cfg = s.cfg ∧ u.rb = s.rb := by
  cases h <;> simp [State.polled]

/-- The canonical form and the reset image of RB are those of the old state, so only FB and CUR are left to show. -/
theorem WireInv_of_sameBank {s u : State} (hs : s.WireInv) (hbank : u.cfg = s.cfg ∧ u.rb = s.rb)
    (hcur : u.cur.toNat ≤ fbCap) (hfb : Memory.wf fbReset fbCap u.fb = true) : u.WireInv := by
  obtain ⟨hcfg, hrb⟩ := hbank
  obtain ⟨-, -, hwf, himage⟩ := hs
  refine ⟨hcur, hfb, by rwa [hcfg, hrb], fun i hi => ?_⟩
  rw [State.rbByte_congr hcfg hrb, hcfg, himage i hi]

theorem roomFor_le (s : State) (n : Nat) : s.roomFor n ≤ fbCap - s.cur.toNat := Nat.min_le_right _ _

theorem take_roomFor_length (s : State) (p : List Byte) :
    (p.take (s.roomFor p.length)).length = s.roomFor p.length :=
  List.length_take_of_le (Nat.min_le_left _ _)

theorem Effect.cur_le {s u : State} {i : Instr} {r : Result} (h : Effect s i u r) (hcur : s.cur.toNat ≤ fbCap) :
    u.cur.toNat ≤ fbCap := by
  cases h with
  | stored now p =>
    have hroom := roomFor_le s p.length
    rw [State.storeBytes_cur, take_roomFor_length, BitVec.toNat_ofNat]
    exact (Nat.mod_le _ _).trans (by omega)
  | dispatched => exact Nat.zero_le _
  | _ => exact hcur

theorem Effect.fb_wf {s u : State} {i : Instr} {r : Result} (h : Effect s i u r)
    (hfb : Memory.wf fbReset fbCap s.fb = true) : Memory.wf fbReset fbCap u.fb = true := by
  cases h with
  | stored now p hcur =>
    have hroom := roomFor_le s p.length
    exact Memory.wf_writeList _ hfb (by rw [take_roomFor_length]; omega)
  | _ => exact hfb

theorem Effect.wireInv {s u : State} {i : Instr} {r : Result} (h : Effect s i u r) (hs : s.WireInv) : u.WireInv := by
  have ⟨hcur, hfb, _, _⟩ := hs
  exact WireInv_of_sameBank hs h.cfg_rb (h.cur_le hcur) (h.fb_wf hfb)

/-- A full history loses its oldest sample, so the new one has at most five (R160). -/
theorem appendSample_length {s : State} (h : s.hlen.toNat ≤ histCap) (b : Byte) :
    (s.appendSample b).length = min (s.hlen.toNat + 1) histCap := by
  unfold State.appendSample State.samples histCap at *
  split <;> simp <;> omega

theorem Effect.historyInv {s u : State} {i : Instr} {r : Result} (h : Effect s i u r) (hs : s.HistoryInv) :
    u.HistoryInv := by
  cases h with
  | sampled b _ hlen =>
    have hnew := appendSample_length hlen b
    calc (BitVec.ofNat 3 (s.appendSample b).length).toNat
        ≤ (s.appendSample b).length := Nat.mod_le _ _
      _ ≤ histCap := by omega
  | cleared => exact Nat.zero_le _
  | _ => exact hs

/-! ### The calibration counters (R182) -/

theorem pollCnt_le_succ (s : State) (x : Int) : s.calCnt.toNat ≤ s.pollCnt x ∧ s.pollCnt x ≤ s.calCnt.toNat + 1 := by
  unfold State.pollCnt
  split <;> omega

/-- One more poll keeps every reading counted within an i8 and below 0. -/
theorem pollSum_bounds {s : State} (hs : s.CalibrationInv) (b : Byte) :
    -128 * (s.pollCnt (rssiOf b) : Int) ≤ s.pollSum (rssiOf b) ∧
      s.pollSum (rssiOf b) ≤ -(s.pollCnt (rssiOf b) : Int) := by
  obtain ⟨-, -, -, hlo, hhi, -⟩ := hs
  have hb : -128 ≤ rssiOf b := BitVec.le_toInt b
  unfold State.pollSum State.pollCnt validReading
  split
  · next hneg =>
    rw [decide_eq_true_eq] at hneg
    push_cast
    omega
  · exact ⟨hlo, hhi⟩

/-- What a poll in CAL mode stores stays within the bounds of R22, from a calibration that has not ended. -/
theorem poll_bounds {s : State} (hs : s.CalibrationInv) (hmode : s.mode = .cal) (x : Int) :
    s.pollCnt x ≤ s.pollTries ∧ s.pollTries ≤ calMax ∧ s.pollCnt x ≤ calN := by
  obtain ⟨hle, -, -, -, -, hcal⟩ := hs
  obtain ⟨hcnt, htries⟩ := hcal hmode
  have hstep := pollCnt_le_succ s x
  unfold State.pollTries
  omega

/-- Under the counters' invariant a sum of at most ten readings fits its 12 bits. -/
theorem toInt_ofInt_pollSum {s : State} (hs : s.CalibrationInv) (hmode : s.mode = .cal) (b : Byte) :
    (BitVec.ofInt 12 (s.pollSum (rssiOf b))).toInt = s.pollSum (rssiOf b) := by
  obtain ⟨hlo, hhi⟩ := pollSum_bounds hs b
  obtain ⟨-, -, hcnt⟩ := poll_bounds hs hmode (rssiOf b)
  unfold calN at hcnt
  rw [BitVec.toInt_ofInt]
  exact Int.bmod_eq_of_le (by omega) (by omega)

theorem toNat_ofNat_pollCnt {s : State} (hs : s.CalibrationInv) (hmode : s.mode = .cal) (x : Int) :
    (BitVec.ofNat 4 (s.pollCnt x)).toNat = s.pollCnt x := by
  obtain ⟨-, -, hcnt⟩ := poll_bounds hs hmode x
  unfold calN at hcnt
  exact Nat.mod_eq_of_lt (by omega)

/-- Under the counters' invariant nothing a poll in CAL mode stores is cut to its register (log entry 10). -/
theorem polled_counters {s : State} (hs : s.CalibrationInv) (hmode : s.mode = .cal) (b : Byte) :
    (s.polled b).calTries.toNat = s.pollTries ∧ (s.polled b).calCnt.toNat = s.pollCnt (rssiOf b) ∧
      (s.polled b).calSum.toInt = s.pollSum (rssiOf b) := by
  obtain ⟨-, htries, -⟩ := poll_bounds hs hmode (rssiOf b)
  unfold calMax at htries
  exact ⟨Nat.mod_eq_of_lt (by omega), toNat_ofNat_pollCnt hs hmode _, toInt_ofInt_pollSum hs hmode b⟩

/-- A state with the counters of a poll meets the counters' invariant, if it is in CAL mode only when the poll did not
end the calibration. -/
theorem CalibrationInv_of_polled {s u : State} {b : Byte} (hs : s.CalibrationInv) (hmode : s.mode = .cal)
    (hu : u.calTries = (s.polled b).calTries ∧ u.calCnt = (s.polled b).calCnt ∧ u.calSum = (s.polled b).calSum)
    (hrunning : u.mode = .cal → s.pollCnt (rssiOf b) ≠ calN ∧ s.pollTries ≠ calMax) : u.CalibrationInv := by
  obtain ⟨hutries, hucnt, husum⟩ := hu
  obtain ⟨htries, hcnt, hsum⟩ := polled_counters hs hmode b
  obtain ⟨hle, hmax, hten⟩ := poll_bounds hs hmode (rssiOf b)
  obtain ⟨hlo, hhi⟩ := pollSum_bounds hs b
  unfold State.CalibrationInv
  rw [hutries, hucnt, husum, htries, hcnt, hsum]
  refine ⟨hle, hmax, hten, hlo, hhi, fun hm => ?_⟩
  obtain ⟨hcnt', htries'⟩ := hrunning hm
  omega

theorem enterCal_calibrationInv (s : State) : s.enterCal.CalibrationInv := by
  simp [State.CalibrationInv, calMax, calN]

theorem Effect.calibrationInv {s u : State} {i : Instr} {r : Result} (h : Effect s i u r) (hs : s.CalibrationInv) :
    u.CalibrationInv := by
  cases h with
  | calStarted => exact enterCal_calibrationInv s
  | calDone b hmode => exact CalibrationInv_of_polled hs hmode ⟨rfl, rfl, rfl⟩ nofun
  | calFailed b hmode => exact CalibrationInv_of_polled hs hmode ⟨rfl, rfl, rfl⟩ nofun
  | calBusy b hmode hcnt htries => exact CalibrationInv_of_polled hs hmode ⟨rfl, rfl, rfl⟩ fun _ => ⟨hcnt, htries⟩
  | _ => exact hs

/-- The reference is written only with the sum and count of a calibration's valid readings (R183). -/
theorem Effect.referenceInv {s u : State} {i : Instr} {r : Result} (h : Effect s i u r) (hs : s.ReferenceInv)
    (hcal : s.CalibrationInv) : u.ReferenceInv := by
  cases h with
  | calDone b hmode _ hcnt =>
    obtain ⟨-, -, hten⟩ := poll_bounds hcal hmode (rssiOf b)
    unfold State.ReferenceInv
    rw [State.setReference_refSum, State.setReference_refCnt, toInt_ofInt_pollSum hcal hmode,
      toNat_ofNat_pollCnt hcal hmode]
    exact ⟨hcnt, hten, pollSum_bounds hcal b⟩
  | _ => exact hs

/-! ### The raw distance and the estimate (R153, R162) -/

/-- The bit search never passes a value with `ok`, wherever its last candidate stands. -/
theorem leastFrom_le {ok : Nat → Bool} (mono : ∀ a b, a ≤ b → ok a = true → ok b = true) {d : Nat}
    (hd : ok d = true) (bits base : Nat) (hbase : base ≤ d) : leastFrom ok bits base ≤ d := by
  induction bits generalizing base with
  | zero => exact hbase
  | succ bits ih =>
    rw [leastFrom]
    split
    · exact ih base hbase
    · next hmid =>
      have hlt : ¬ d ≤ base + 2 ^ bits - 1 := fun hle => hmid (mono _ _ hle hd)
      exact ih _ (by omega)

/-- R154's inequality, once true, stays true for larger distances. -/
theorem roundsBelow_mono (p : Int) (q a b : Nat) (hab : a ≤ b) (h : roundsBelow p q a = true) :
    roundsBelow p q b = true := by
  rw [roundsBelow, decide_eq_true_eq] at *
  refine h.trans_le (Nat.mul_le_mul_right _ (Nat.pow_le_pow_left ?_ q))
  omega

theorem roundedDistance_le {p : Int} {q d : Nat} (h : roundsBelow p q d = true) : roundedDistance p q ≤ d :=
  leastFrom_le (roundsBelow_mono p q) h _ _ (Nat.zero_le d)

/-- With N_EXP = 5/2 the exponent is at most 254/50, and 100 * 10^(254/50) is below 12 022 644.5 (R162). -/
theorem roundsBelow_max {p : Int} {cnt : Nat} (hcnt : 0 < cnt) (hp : p ≤ 254 * cnt) :
    roundsBelow p (50 * cnt) 12022644 = true := by
  have hbase : 200 ^ 50 * 10 ^ 254 < 24045289 ^ 50 := by norm_num
  have hexp : p.toNat ≤ 254 * cnt := by omega
  rw [roundsBelow, decide_eq_true_eq]
  calc 200 ^ (50 * cnt) * 10 ^ p.toNat
      ≤ 200 ^ (50 * cnt) * 10 ^ (254 * cnt) := by gcongr; norm_num
    _ = (200 ^ 50 * 10 ^ 254) ^ cnt := by rw [mul_pow, ← pow_mul, ← pow_mul]
    _ < (24045289 ^ 50) ^ cnt := Nat.pow_lt_pow_left hbase hcnt.ne'
    _ = (2 * 12022644 + 1) ^ (50 * cnt) := by rw [← pow_mul]
    _ ≤ (2 * 12022644 + 1) ^ (50 * cnt) * 10 ^ (-p).toNat := Nat.le_mul_of_pos_right _ (by positivity)

/-- R153's range of the raw distance of a valid reading, for a legal reference and N_EXP = 5/2. -/
theorem raw_bounds {s : State} (href : s.ReferenceInv) (hexp : s.cfg.DefaultExponent) {b : Byte} (hb : rssiOf b < 0) :
    0 ≤ s.raw (rssiOf b) ∧ s.raw (rssiOf b) ≤ 12022644 := by
  obtain ⟨hpos, -, -, hsum⟩ := href
  obtain ⟨hnum, hden⟩ := hexp
  have hlo : -128 ≤ rssiOf b := BitVec.le_toInt b
  have hq : pathQ s.cfg s.refCnt.toNat = 50 * s.refCnt.toNat := by rw [pathQ, hnum]
  have hp : pathP s.cfg s.refSum.toInt s.refCnt.toNat (rssiOf b) ≤ 254 * s.refCnt.toNat := by
    rw [pathP, hden]
    push_cast
    nlinarith
  have hle := roundedDistance_le (roundsBelow_max hpos hp)
  have hraw : s.raw (rssiOf b) =
      roundedDistance (pathP s.cfg s.refSum.toInt s.refCnt.toNat (rssiOf b)) (50 * s.refCnt.toNat) := by
    simp [State.raw, rawDistance, validReading, hb, hq, Nat.ne_of_gt hpos]
  omega

/-- An invalid reading has the sentinel as its raw distance (R153). -/
theorem raw_invalid (s : State) {x : Int} (hx : ¬ x < 0) : s.raw x = sentinel := by
  simp [State.raw, rawDistance, validReading, hx]

theorem appendSample_ne_nil (s : State) (b : Byte) : s.appendSample b ≠ [] := by
  unfold State.appendSample
  split <;> simp

/-- The median of the history is one of its readings, so a byte. -/
theorem median_eq_rssiOf (s : State) (b : Byte) :
    ∃ c ∈ s.appendSample b, rssiOf c = median ((s.appendSample b).map rssiOf) :=
  List.mem_map.mp (median_mem (by simpa using appendSample_ne_nil s b))

/-- The word EST holds after reset and after a clearing DISC is the sentinel (D13, R188). -/
theorem sentinelWord_toInt : (0xFFFFFF9C : Word).toInt = sentinel := by decide

/-- `v` is a value R31 allows EST to hold under N_EXP = 5/2. -/
def EstimateBound (v : Int) : Prop := v = sentinel ∨ (-20 ≤ v ∧ v ≤ 12022644)

/-- Adopting or smoothing a raw distance within R153's range keeps the bounds of R31. -/
theorem nextEstimate_bound {s : State} (hs : EstimateBound s.est.toInt) {raw : Int}
    (hraw : raw = sentinel ∨ (0 ≤ raw ∧ raw ≤ 12022644)) : EstimateBound (s.nextEstimate raw) := by
  unfold EstimateBound State.nextEstimate State.estValid smooth sentinel at *
  split
  · next hvalid =>
    rw [decide_eq_true_eq] at hvalid
    omega
  · omega

/-- A bounded estimate fits an i32, so EST holds it exactly (R18). -/
theorem distanceWord_toInt {v : Int} (hlo : -2147483648 ≤ v) (hhi : v ≤ 2147483647) : (distanceWord v).toInt = v := by
  rw [distanceWord, if_pos ⟨hlo, hhi⟩, BitVec.toInt_ofInt]
  exact Int.bmod_eq_of_le (by omega) (by omega)

theorem sampledEst_bound {s : State} (href : s.ReferenceInv) (hexp : s.cfg.DefaultExponent)
    (hs : EstimateBound s.est.toInt) (b : Byte) : EstimateBound (s.sampledEst b).toInt := by
  obtain ⟨c, -, hc⟩ := median_eq_rssiOf s b
  have hraw : s.raw (rssiOf c) = sentinel ∨ (0 ≤ s.raw (rssiOf c) ∧ s.raw (rssiOf c) ≤ 12022644) := by
    by_cases hneg : rssiOf c < 0
    · exact .inr (raw_bounds href hexp hneg)
    · exact .inl (raw_invalid s hneg)
  have hnext := nextEstimate_bound hs hraw
  rw [State.sampledEst, ← hc, distanceWord_toInt]
  · exact hnext
  all_goals
    unfold EstimateBound sentinel at hnext
    omega

theorem Effect.estimateInv {s u : State} {i : Instr} {r : Result} (h : Effect s i u r) (hs : s.EstimateInv)
    (href : s.ReferenceInv) : u.EstimateInv := by
  cases h with
  | sampled b => exact fun hexp => sampledEst_bound href hexp (hs hexp) b
  | cleared => exact fun _ => .inl sentinelWord_toInt
  | _ => exact hs

/-! ### The invariant along a run -/

/-- No result and no list of results is part of the invariant. -/
theorem inv_emit_iff (s : State) (r : Result) : (s.emit r).Inv ↔ s.Inv := Iff.rfl

theorem exec_keeps_inv {i : Instr} {s t : State} (hs : s.Inv) (h : exec i s = .next t) : t.Inv := by
  obtain ⟨u, r, he, rfl⟩ := exec_next h
  obtain ⟨hcfg, hwire, hhist, href, hcal, hest⟩ := hs
  rw [inv_emit_iff]
  exact ⟨by rwa [he.cfg_rb.1], he.wireInv hwire, he.historyInv hhist, he.referenceInv href hcal,
    he.calibrationInv hcal, he.estimateInv hest href⟩

/-- Settles O45: each part of the invariant is kept by every effect an instruction can have. -/
theorem stepKeepsTheBounds : Obligations.StepKeepsTheBounds := by
  intro s t hs h
  obtain ⟨-, rfl⟩ | ⟨c, rest, i, -, -, hexec⟩ := step_next h
  · exact hs
  · have htaken : (s.takeCommand rest).Inv := hs
    exact exec_keeps_inv htaken hexec

/-- What every step keeps, every run keeps. -/
theorem runSteps_keeps {P : State → Prop} (hstep : ∀ s t, P s → step s = .next t → P t) {n : Nat} {s t : State}
    (hs : P s) (h : runSteps n s = .next t) : P t := by
  induction n generalizing s with
  | zero =>
    cases h
    exact hs
  | succ n ih =>
    rw [runSteps] at h
    split at h
    · next u hu => exact ih (hstep s u hs hu) h
    all_goals cases h

/-- What holds at reset, whatever commands are presented, and is kept by every step holds in every reachable state. -/
theorem Reachable.induct {c : Config} {t : State} {P : State → Prop} (h : Reachable c t)
    (hreset : ∀ cmds, P { State.resetWith c with inbox := cmds })
    (hstep : ∀ s t, P s → step s = .next t → P t) : P t := by
  obtain ⟨cmds, n, hrun⟩ := h
  exact runSteps_keeps hstep (hreset cmds) hrun

/-- The reset reference is REF_INIT over 1, with REF_INIT sign-extended to 12 bits (R33). -/
theorem resetWith_refSum (c : Config) : (State.resetWith c).refSum.toInt = c.refInit.toInt :=
  BitVec.toInt_signExtend_of_le (by decide)

theorem resetWith_referenceInv {c : Config} (hc : c.WellFormed) : (State.resetWith c).ReferenceInv := by
  have hlo := BitVec.le_toInt c.refInit
  have hneg := hc.1
  have hcnt : (State.resetWith c).refCnt.toNat = 1 := rfl
  unfold State.ReferenceInv calN
  rw [resetWith_refSum, hcnt]
  omega

theorem resetWith_calibrationInv (c : Config) : (State.resetWith c).CalibrationInv := by
  simp [State.resetWith, State.CalibrationInv, calMax, calN]

/-- Settles O44: the storages are empty and every register holds a value within R31's bounds. -/
theorem resetMeetsTheBounds : Obligations.ResetMeetsTheBounds := by
  intro c hc
  have hwire : (State.resetWith c).WireInv := ⟨Nat.zero_le _, rfl, rfl, fun _ _ => rfl⟩
  exact ⟨hc, hwire, Nat.zero_le _, resetWith_referenceInv hc, resetWith_calibrationInv c,
    fun _ => .inl sentinelWord_toInt⟩

/-- Settles O46: the invariant holds at reset and every step keeps it. -/
theorem reachableStatesMeetTheBounds : Obligations.ReachableStatesMeetTheBounds := by
  intro c t hc h
  exact h.induct (P := State.Inv) (fun _ => resetMeetsTheBounds c hc) stepKeepsTheBounds

/-! ### Who writes what -/

/-- No effect writes the host's side: what is added to the results is the one result emitted. -/
theorem Effect.inbox_results {s u : State} {i : Instr} {r : Result} (h : Effect s i u r) :
    u.inbox = s.inbox ∧ u.results = s.results := by
  cases h <;> simp [State.polled]

theorem Effect.tx {s u : State} {i : Instr} {r : Result} (h : Effect s i u r) :
    u.tx = s.tx ∨ ∃ now bs, i = .poll now ∧ r = .bytes bs ∧ u.tx = s.tx ++ bs := by
  cases h with
  | dispatched now => exact .inr ⟨now, _, rfl, rfl, rfl⟩
  | _ => simp [State.polled]

/-- Settles O50: an instruction has one effect, which leaves the results and the queue alone, and emits one result. -/
theorem oneResultEachAndOnlyPollTransmits : Obligations.OneResultEachAndOnlyPollTransmits := by
  intro i s t h
  obtain ⟨u, r, he, rfl⟩ := exec_next h
  obtain ⟨hinbox, hresults⟩ := he.inbox_results
  exact ⟨r, by rw [State.emit_results, hresults], hinbox, he.tx⟩

/-- Settles O51, effect by effect: an element that differs is one the effect's instruction owns. -/
theorem eachElementHasItsWriters : Obligations.EachElementHasItsWriters := by
  intro i s t h
  obtain ⟨u, r, he, rfl⟩ := exec_next h
  refine ⟨he.cfg_rb.1, he.cfg_rb.2, ?_⟩
  cases he with
  | calDone b hmode => simp [State.polled, hmode]
  | calFailed | calBusy => simp [State.polled]
  | cleared hclr => simp [hclr]
  | _ => simp

/-- Settles O52: only `calStarted` enters CAL mode, only `calDone` and `calFailed` leave it. -/
theorem modeChangesOnlyByCalibration : Obligations.ModeChangesOnlyByCalibration := by
  intro i s t h
  obtain ⟨u, r, he, rfl⟩ := exec_next h
  cases he with
  | calStarted => exact ⟨fun _ _ => rfl, nofun⟩
  | calDone b hmode hend =>
    refine ⟨fun hnormal => absurd (hnormal.symm.trans hmode) nofun, fun _ _ => ⟨⟨b, rfl⟩, ?_⟩⟩
    rcases hend with hcnt | htries
    · exact .inl (by simp [State.polled, hcnt, calN])
    · exact .inr (by simp [State.polled, htries, calMax])
  | calFailed b hmode htries =>
    refine ⟨fun hnormal => absurd (hnormal.symm.trans hmode) nofun, fun _ _ => ⟨⟨b, rfl⟩, .inr ?_⟩⟩
    simp [State.polled, htries, calMax]
  | _ => exact ⟨fun hnormal hcal => absurd (hnormal.symm.trans hcal) nofun,
      fun hcal hnormal => absurd (hnormal.symm.trans hcal) nofun⟩

/-! ### The two sides (R32) -/

theorem Effect.sameWireless {s u : State} {i : Instr} {r : Result} (h : Effect s i u r) (hi : wireSide i = true) :
    SameWireless s u := by
  cases h with
  | unchanged | stored | dispatched => constructor <;> simp
  | _ => cases hi

theorem Effect.sameWire {s u : State} {i : Instr} {r : Result} (h : Effect s i u r) (hi : wirelessSide i = true) :
    SameWire s u := by
  cases h with
  | stored | dispatched => cases hi
  | _ => constructor <;> simp [State.polled]

theorem SameWireless.emit {s u : State} (h : SameWireless s u) (r : Result) : SameWireless s (u.emit r) := { h with }

theorem SameWire.emit {s u : State} (h : SameWire s u) (r : Result) : SameWire s (u.emit r) := { h with }

/-- Settles O55: the effects of a side write that side's elements only. -/
theorem sidesDoNotWriteEachOther : Obligations.SidesDoNotWriteEachOther := by
  intro i s t h
  obtain ⟨u, r, he, rfl⟩ := exec_next h
  refine ⟨fun hi => (he.sameWireless hi).emit r, fun hi => ?_⟩
  have hw := (he.sameWire hi).emit r
  exact ⟨hw, fun a => ⟨State.fbByte_congr hw.fb a, State.rbByte_congr he.cfg_rb.1 hw.rb a⟩⟩

/-! ### One equation per case of a meaning -/

section Cases
variable {s : State}

theorem execIngest_full {now : Word} {p : List Byte} (hcur : s.cur.toNat ≤ fbCap) (hroom : s.roomFor p.length = 0) :
    execIngest now p s = .next (s.emit (.count 0)) := by
  rw [execIngest, if_neg (Nat.not_lt.mpr hcur), if_pos hroom]

theorem execIngest_room {now : Word} {p : List Byte} (hcur : s.cur.toNat ≤ fbCap) (hroom : 0 < s.roomFor p.length) :
    execIngest now p s =
      .next ((s.storeBytes now (p.take (s.roomFor p.length))).emit (.count (s.roomFor p.length))) := by
  rw [execIngest, if_neg (Nat.not_lt.mpr hcur), if_neg hroom.ne']

theorem execPoll_quiet {now : Word} (h : s.cur = 0 ∨ s.elapsed now ≤ tSilence) :
    execPoll now s = .next (s.emit (.bytes [])) := by
  rw [execPoll, if_pos h]

theorem execPoll_dispatch {now : Word} (hcur : s.cur ≠ 0) (hsilence : tSilence < s.elapsed now)
    (hcap : s.cur.toNat ≤ fbCap) :
    execPoll now s = .next ((s.clearFrame.transmit (process s s.frame)).emit (.bytes (process s s.frame))) := by
  rw [execPoll, if_neg (not_or.mpr ⟨hcur, Nat.not_le.mpr hsilence⟩), if_neg (Nat.not_lt.mpr hcap)]

theorem execProc_fits {f : List Byte} (h : f.length ≤ fbCap) :
    execProc f s = .next (s.emit (.bytes (process s f))) := by
  rw [execProc, if_neg (Nat.not_lt.mpr h)]

theorem execMbReadHoldingRegisters_fits {addr : Byte} {start count : Half} {extra : List Byte}
    (h : minFrame + extra.length ≤ fbCap) :
    execMbReadHoldingRegisters addr start count extra s =
      .next (s.emit (.bytes (if addr = s.cfg.slaveAddr then readHolding s start count else []))) := by
  rw [execMbReadHoldingRegisters, if_neg (Nat.not_lt.mpr h)]
  by_cases haddr : addr = s.cfg.slaveAddr <;> simp [haddr]

theorem execMbReadHoldingRegisters_next_fits {addr : Byte} {start count : Half} {extra : List Byte} {t : State}
    (h : execMbReadHoldingRegisters addr start count extra s = .next t) : minFrame + extra.length ≤ fbCap := by
  by_contra hlong
  rw [execMbReadHoldingRegisters, if_pos (Nat.not_le.mp hlong)] at h
  cases h

theorem execMbReadHoldingRegistersResponse_inside {start count : Half} (h : endOff start count ≤ rbSize) :
    execMbReadHoldingRegistersResponse start count s = .next (s.emit (.bytes (successResponse s start count))) := by
  rw [execMbReadHoldingRegistersResponse, if_neg (Nat.not_lt.mpr h)]

theorem execSample_cal {b : Byte} (hmode : s.mode = .cal) : execSample b s = .next (s.emit (.i32 s.est)) := by
  simp only [execSample, hmode]

theorem execSample_normal {b : Byte} (hmode : s.mode = .normal) (hlen : s.hlen.toNat ≤ histCap) :
    execSample b s =
      .next (((s.storeHistory (s.appendSample b)).setEst (s.sampledEst b)).emit (.i32 (s.sampledEst b))) := by
  simp only [execSample, hmode, if_neg (Nat.not_lt.mpr hlen)]
  rfl

theorem execCalstart_normal (hmode : s.mode = .normal) : execCalstart s = .next (s.enterCal.emit (.bytes [])) := by
  simp only [execCalstart, hmode]

theorem execCalstart_cal (hmode : s.mode = .cal) : execCalstart s = .next (s.emit (.bytes [])) := by
  simp only [execCalstart, hmode]

theorem execCalpoll_normal {b : Byte} (hmode : s.mode = .normal) :
    execCalpoll b s = .next (s.emit (.status .ignored)) := by
  simp only [execCalpoll, hmode]

theorem execCalpoll_done {b : Byte} (hmode : s.mode = .cal)
    (hend : s.pollCnt (rssiOf b) = calN ∨ s.pollTries = calMax) (hcnt : 1 ≤ s.pollCnt (rssiOf b)) :
    execCalpoll b s = .next ((((s.polled b).leaveCal true).setReference (s.pollSum (rssiOf b))
      (s.pollCnt (rssiOf b))).emit (.status .doneOk)) := by
  simp only [execCalpoll, hmode, if_pos hend, if_pos hcnt]
  rfl

theorem execCalpoll_failed {b : Byte} (hmode : s.mode = .cal) (htries : s.pollTries = calMax)
    (hcnt : s.pollCnt (rssiOf b) = 0) :
    execCalpoll b s = .next (((s.polled b).leaveCal false).emit (.status .doneFail)) := by
  simp only [execCalpoll, hmode, if_pos (Or.inr htries), State.polled, hcnt]
  rfl

theorem execCalpoll_busy {b : Byte} (hmode : s.mode = .cal) (hcnt : s.pollCnt (rssiOf b) ≠ calN)
    (htries : s.pollTries ≠ calMax) : execCalpoll b s = .next ((s.polled b).emit (.status .busy)) := by
  simp only [execCalpoll, hmode, if_neg (not_or.mpr ⟨hcnt, htries⟩)]
  rfl

theorem execDisc_clears (hclr : s.cfg.clrOnDisc = true) :
    execDisc s = .next ((s.setActive false).clearEstimate.emit (.bytes [])) := by
  rw [execDisc, if_pos hclr]

theorem execDisc_keeps (hclr : s.cfg.clrOnDisc = false) :
    execDisc s = .next ((s.setActive false).emit (.bytes [])) := by
  rw [execDisc, hclr, if_neg Bool.false_ne_true]

end Cases

/-! ### A side's operations do not look at the other side (R32) -/

/-- `s` with the wire side and the host's interface of `w`. -/
def State.withWireOf (s w : State) : State :=
  { s with
    fb := w.fb, cur := w.cur, lastRx := w.lastRx, rb := w.rb, tx := w.tx
    inbox := w.inbox, results := w.results }

/-- `s` with the wireless side and the host's interface of `w`. -/
def State.withWirelessOf (s w : State) : State :=
  { w with cfg := s.cfg, fb := s.fb, cur := s.cur, lastRx := s.lastRx, rb := s.rb, tx := s.tx }

theorem SameWireless.eq_withWireOf {s t : State} (h : SameWireless s t) (hcfg : s.cfg = t.cfg) :
    t = s.withWireOf t := by
  cases s; cases t; cases h; simp_all [State.withWireOf]

theorem SameWire.eq_withWirelessOf {s t : State} (h : SameWire s t) (hcfg : s.cfg = t.cfg) :
    t = s.withWirelessOf t := by
  cases s; cases t; cases h; simp_all [State.withWirelessOf]

theorem sameWireless_withWireOf (s w : State) (r : Result) : SameWireless (s.emit r) ((s.withWireOf w).emit r) :=
  ⟨rfl, rfl, rfl, rfl, rfl, rfl, rfl, rfl, rfl, rfl, rfl⟩

theorem sameWire_withWirelessOf (s w : State) (r : Result) : SameWire (s.emit r) ((s.withWirelessOf w).emit r) :=
  ⟨rfl, rfl, rfl, rfl, rfl⟩

/-- A wireless-side operation does over any wire side what it does over its own. -/
theorem exec_withWireOf {i : Instr} {s t : State} (w : State) (hi : wirelessSide i = true) (h : exec i s = .next t) :
    ∃ (u : State) (r : Result), t = u.emit r ∧ u.results = s.results ∧
      exec i (s.withWireOf w) = .next ((u.withWireOf w).emit r) := by
  cases i with
  | sample b =>
    obtain ⟨hmode, ht⟩ | ⟨hmode, hlen, ht⟩ := execSample_next h
    · exact ⟨s, _, ht, rfl, execSample_cal hmode⟩
    · exact ⟨_, _, ht, rfl, execSample_normal hmode hlen⟩
  | dist b => exact ⟨s, _, execDist_next h, rfl, rfl⟩
  | calstart =>
    obtain ⟨hmode, ht⟩ | ⟨hmode, ht⟩ := execCalstart_next h
    · exact ⟨_, _, ht, rfl, execCalstart_normal hmode⟩
    · exact ⟨s, _, ht, rfl, execCalstart_cal hmode⟩
  | calpoll b =>
    obtain ⟨hmode, ht⟩ | ⟨hmode, hend, hcnt, ht⟩ | ⟨hmode, htries, hcnt, ht⟩ | ⟨hmode, hcnt, htries, ht⟩ :=
      execCalpoll_next h
    · exact ⟨s, _, ht, rfl, execCalpoll_normal hmode⟩
    · exact ⟨_, _, ht, rfl, execCalpoll_done hmode hend hcnt⟩
    · exact ⟨_, _, ht, rfl, execCalpoll_failed hmode htries hcnt⟩
    · exact ⟨_, _, ht, rfl, execCalpoll_busy hmode hcnt htries⟩
  | conn => exact ⟨_, _, execConn_next h, rfl, rfl⟩
  | disc =>
    obtain ⟨hclr, ht⟩ | ⟨hclr, ht⟩ := execDisc_next h
    · exact ⟨_, _, ht, rfl, execDisc_clears hclr⟩
    · exact ⟨_, _, ht, rfl, execDisc_keeps hclr⟩
  | _ => cases hi

/-- A wire-side operation does over any wireless side what it does over its own. -/
theorem exec_withWirelessOf {i : Instr} {s t : State} (w : State) (hi : wireSide i = true) (h : exec i s = .next t) :
    ∃ (u : State) (r : Result), t = u.emit r ∧ u.results = s.results ∧
      exec i (s.withWirelessOf w) = .next ((u.withWirelessOf w).emit r) := by
  cases i with
  | crc p => exact ⟨s, _, execCrc_next h, rfl, rfl⟩
  | ingest now p =>
    obtain ⟨hcur, ⟨hroom, ht⟩ | ⟨hroom, ht⟩⟩ := execIngest_next h
    · exact ⟨s, _, ht, rfl, execIngest_full hcur hroom⟩
    · exact ⟨_, _, ht, rfl, execIngest_room hcur hroom⟩
  | poll now =>
    obtain ⟨hquiet, ht⟩ | ⟨hcur, hsilence, hcap, ht⟩ := execPoll_next h
    · exact ⟨s, _, ht, rfl, execPoll_quiet hquiet⟩
    · exact ⟨_, _, ht, rfl, execPoll_dispatch hcur hsilence hcap⟩
  | proc f =>
    obtain ⟨hlen, ht⟩ := execProc_next h
    exact ⟨s, _, ht, rfl, execProc_fits hlen⟩
  | mbReadHoldingRegisters addr start count extra =>
    exact ⟨s, _, execMbReadHoldingRegisters_next h, rfl,
      execMbReadHoldingRegisters_fits (execMbReadHoldingRegisters_next_fits h)⟩
  | mbReadHoldingRegistersResponse start count =>
    obtain ⟨hend, ht⟩ := execMbReadHoldingRegistersResponse_next h
    exact ⟨s, _, ht, rfl, execMbReadHoldingRegistersResponse_inside hend⟩
  | mbExceptionIllegalDataAddress => exact ⟨s, _, execMbExceptionIllegalDataAddress_next h, rfl, rfl⟩
  | _ => cases hi

/-- Settles O56: a state that agrees on a side is the first one with the rest exchanged, and over that the side's
operations do the same. -/
theorem sidesDoNotReadEachOther : Obligations.SidesDoNotReadEachOther := by
  intro i s1 s2 t1 hcfg h
  refine ⟨fun hi hsame => ?_, fun hi hsame => ?_⟩
  · obtain ⟨u, r, rfl, hres, hexec⟩ := exec_withWirelessOf s2 hi h
    rw [← hsame.eq_withWirelessOf hcfg] at hexec
    exact ⟨_, r, hexec, sameWire_withWirelessOf u s2 r, by rw [State.emit_results, hres], rfl⟩
  · obtain ⟨u, r, rfl, hres, hexec⟩ := exec_withWireOf s2 hi h
    rw [← hsame.eq_withWireOf hcfg] at hexec
    exact ⟨_, r, hexec, sameWireless_withWireOf u s2 r, by rw [State.emit_results, hres], rfl⟩

/-! ### Steps and stops -/

/-- Settles O1: the three cases of the step. -/
theorem stepRunsTheDecodedCommand : Obligations.StepRunsTheDecodedCommand := by
  refine ⟨fun s c rest i hin hdec => ?_, fun s c rest e hin hdec => ?_, fun s hin => ?_⟩
  · simp only [step, hin, hdec]
    rfl
  · simp only [step, hin, hdec]
  · simp only [step, hin]

theorem execIngest_fault_iff {now : Word} {p : List Byte} {s : State} :
    execIngest now p s = .fault .cursorOutOfRange ↔ fbCap < s.cur.toNat := by
  unfold execIngest
  split
  · next hcur => simp [hcur]
  · next hcur => split <;> simp [hcur]

/-- An illegal cursor is not 0, so only the silence decides whether the POLL asks for the cells. -/
theorem execPoll_fault_iff {now : Word} {s : State} :
    execPoll now s = .fault .cursorOutOfRange ↔ fbCap < s.cur.toNat ∧ tSilence < s.elapsed now := by
  unfold execPoll
  split
  · next hquiet =>
    refine iff_of_false nofun fun ⟨hcur, hsilence⟩ => ?_
    rcases hquiet with hzero | hquiet
    · rw [hzero] at hcur
      exact Nat.not_lt_zero _ hcur
    · omega
  · next hdue =>
    rw [not_or, Nat.not_le] at hdue
    split
    · next hcur => simp [hcur, hdue.2]
    · next hcur => simp [hcur]

/-- Settles O14, from the two characterisations of the cursor fault. -/
theorem ingestAndPollStopOnlyOnIllegalCursor : Obligations.IngestAndPollStopOnlyOnIllegalCursor :=
  fun _ _ _ => ⟨execIngest_fault_iff, execPoll_fault_iff⟩

/-- Settles O35: in CAL mode SAMPLE completes, in NORMAL mode the history's length decides. -/
theorem sampleStopsOnlyOnIllegalHistoryLength : Obligations.SampleStopsOnlyOnIllegalHistoryLength := by
  intro b s
  change execSample b s = _ ↔ s.mode = .normal ∧ histCap < s.hlen.toNat
  unfold execSample
  split
  · next hmode => simp [hmode]
  · next hmode =>
    split
    · next hlen => simp [hmode, hlen]
    · next hlen => simp [hlen]

/-! ### Reset (R33) -/

theorem rbReset_zero_above {c : Config} {i : Nat} (h : 4 ≤ i) : rbReset c i = 0x00 := by
  unfold rbReset
  split
  case h_5 => rfl
  all_goals omega

theorem resetWith_hist (c : Config) (i : Fin 5) : (State.resetWith c).hist[i] = 0 := by
  fin_cases i <;> rfl

/-- Settles O43: the storages are empty, so they read their reset contents; the registers are those of the table. -/
theorem resetValuesAreThoseOfTheTable : Obligations.ResetValuesAreThoseOfTheTable := by
  refine ⟨fun c => ?_, rfl, rfl, by decide, rfl, rfl⟩
  have hbank : ∀ i, 4 ≤ i → i < 20 → (State.resetWith c).rbByte i = 0x00 := fun i h _ => rbReset_zero_above h
  exact ⟨fun _ _ => rfl, rfl, rfl, rfl, rfl, rfl, rfl, hbank, rfl, resetWith_hist c, rfl, sentinelWord_toInt,
    resetWith_refSum c, rfl, rfl, rfl, rfl, rfl, rfl, rfl, rfl⟩

/-! ### The register map (R30) -/

theorem execRd_mapped {a : Word} {s : State} (h : rdMapped a = true) :
    execRd a s = .next (s.emit (.u32 (s.register a.toNat))) := by
  rw [execRd, if_pos h]

theorem execRd_reserved {a : Word} {s : State} (h : rdMapped a = false) :
    execRd a s = .refused (.rejected (.reservedAddress a)) := by
  rw [execRd, h, if_neg Bool.false_ne_true]

theorem exists_lt_eq_add_iff (n k x : Nat) : (∃ i < n, x = k + i) ↔ k ≤ x ∧ x < k + n :=
  ⟨fun ⟨_, hi, hx⟩ => by omega, fun ⟨_, _⟩ => ⟨x - k, by omega, by omega⟩⟩

theorem rdMapped_iff (a : Word) : rdMapped a = true ↔
    a.toNat ∈ rdWordAddrs ∨ (∃ i < fbCap, a.toNat = 0x40 + i) ∨ (∃ i < rbSize, a.toNat = 0x80 + i) := by
  simp only [exists_lt_eq_add_iff, rdMapped, Bool.or_eq_true, Bool.and_eq_true, decide_eq_true_eq,
    List.contains_iff_mem, or_assoc]

/-- Above the word registers stand the two byte windows. -/
theorem register_window (s : State) {a : Nat} (h : 0x1C < a) :
    s.register a = if a < 0x80 then (s.fbByte (a - 0x40)).setWidth 32 else (s.rbByte (a - 0x80)).setWidth 32 := by
  unfold State.register
  split
  case h_9 => rfl
  all_goals omega

theorem register_fbWindow (s : State) {i : Nat} (h : i < 64) : s.register (0x40 + i) = (s.fbByte i).setWidth 32 := by
  rw [register_window s (by omega), if_pos (by omega), Nat.add_sub_cancel_left]

theorem register_rbWindow (s : State) (i : Nat) : s.register (0x80 + i) = (s.rbByte i).setWidth 32 := by
  rw [register_window s (by omega), if_neg (by omega), Nat.add_sub_cancel_left]

/-- A field reads back from its own bits. -/
@[simp] theorem extractLsb'_fieldAt_same {w : Nat} (lo : Nat) (v : BitVec w) (h : lo + w ≤ 32) :
    (fieldAt lo v).extractLsb' lo w = v := by
  ext k hk
  simp [show lo + k < 32 by omega, BitVec.getLsbD_eq_getElem hk]

/-- A field shows nothing at bits that are not its own. -/
@[simp] theorem extractLsb'_fieldAt_apart {w lo lo' n : Nat} (v : BitVec w) (h : lo' + n ≤ lo ∨ lo + w ≤ lo') :
    (fieldAt lo v).extractLsb' lo' n = 0 := by
  ext k hk
  rcases h with hbelow | habove
  · simp [show ¬ lo ≤ lo' + k by omega]
  · simp [show w ≤ lo' + k - lo by omega]

theorem Mode.bit_eq (m : Mode) : m.bit = decide (m = .cal) := by
  cases m <;> rfl

section Words
variable (s : State)

theorem statusWord_fields : s.statusWord.getLsbD 0 = s.active ∧ s.statusWord.getLsbD 1 = decide (s.mode = .cal) ∧
    s.statusWord.getLsbD 2 = s.calOk ∧ s.statusWord.getLsbD 3 = decide (0 ≤ s.est.toInt) ∧
    s.statusWord.extractLsb' 4 7 = s.cur ∧ s.statusWord.extractLsb' 11 3 = s.hlen ∧
    s.statusWord.extractLsb' 14 18 = 0 := by
  simp [State.statusWord, State.estValid, Mode.bit_eq, bitAt, BitVec.extractLsb'_or]

theorem refWord_fields : s.refWord.extractLsb' 0 12 = s.refSum ∧ s.refWord.extractLsb' 12 4 = s.refCnt ∧
    s.refWord.extractLsb' 16 16 = 0 := by
  simp [State.refWord, BitVec.extractLsb'_or]

theorem calWord_fields : s.calWord.extractLsb' 0 12 = s.calSum ∧ s.calWord.extractLsb' 12 4 = s.calCnt ∧
    s.calWord.extractLsb' 16 5 = s.calTries ∧ s.calWord.extractLsb' 21 11 = 0 := by
  simp [State.calWord, BitVec.extractLsb'_or]

theorem histLoWord_fields (i : Fin 4) : s.histLoWord.extractLsb' (8 * i) 8 = s.hist[i.val] := by
  fin_cases i <;> simp [State.histLoWord, BitVec.extractLsb'_or]

theorem histHiWord_fields : s.histHiWord.extractLsb' 0 8 = s.hist[4] ∧ s.histHiWord.extractLsb' 8 24 = 0 := by
  simp [State.histHiWord]

theorem configWord_fields : s.configWord.extractLsb' 0 8 = s.cfg.slaveAddr ∧ s.configWord.getLsbD 8 = s.cfg.clrOnDisc ∧
    s.configWord.extractLsb' 9 23 = 0 := by
  simp [State.configWord, bitAt, BitVec.extractLsb'_or]

end Words

/-- Settles O42: RD by whether the address is mapped; each word's fields stand apart, so each reads back alone. -/
theorem rdReturnsTheMappedRegister : Obligations.RdReturnsTheMappedRegister := by
  intro s
  refine ⟨fun a ha => execRd_mapped ha, fun a ha => execRd_reserved ha, rdMapped_iff, ?_, rfl, rfl, ?_, ?_, ?_, ?_, ?_,
    fun i hi => register_fbWindow s hi, fun i _ => register_rbWindow s i⟩
  · exact statusWord_fields s
  · exact refWord_fields s
  · exact calWord_fields s
  · exact histLoWord_fields s
  · exact histHiWord_fields s
  · exact configWord_fields s

end Sys2Proof.Machine

/-! The proofs of the family 20_memory.md: nothing writes the register bank (R44), and operations of the two sides
commute (R46). -/

namespace Sys2Proof.Machine

/-! ### The register bank (R44) -/

theorem exec_cfg_rb {i : Instr} {s t : State} (h : exec i s = .next t) : t.cfg = s.cfg ∧ t.rb = s.rb := by
  obtain ⟨u, r, he, rfl⟩ := exec_next h
  exact he.cfg_rb

theorem step_cfg_rb {s t : State} (h : step s = .next t) : t.cfg = s.cfg ∧ t.rb = s.rb := by
  obtain ⟨-, rfl⟩ | ⟨c, rest, i, -, -, hexec⟩ := step_next h
  · exact ⟨rfl, rfl⟩
  · simpa using exec_cfg_rb hexec

/-- Every reachable state holds the configuration and the register bank of its reset state. -/
theorem Reachable.cfg_rb {c : Config} {t : State} (h : Reachable c t) :
    t.cfg = c ∧ t.rb = (State.resetWith c).rb := by
  refine h.induct (P := fun t => t.cfg = c ∧ t.rb = (State.resetWith c).rb) (fun _ => ⟨rfl, rfl⟩) ?_
  intro s t ⟨hcfg, hrb⟩ hst
  obtain ⟨hcfg', hrb'⟩ := step_cfg_rb hst
  exact ⟨hcfg'.trans hcfg, hrb'.trans hrb⟩

/-- The register bank reads as its reset image right after reset. -/
theorem resetWith_rbByte (c : Config) (a : Nat) : (State.resetWith c).rbByte a = rbReset c a := rfl

/-- Settles O47: no instruction writes the configuration or RB, on which every byte of the bank depends, so a reachable
state reads the bank as reset does. -/
theorem registerBankStaysAtItsResetImage : Obligations.RegisterBankStaysAtItsResetImage := by
  refine ⟨fun i s t h => ?_, fun c t h i _ => ?_⟩
  · obtain ⟨hcfg, hrb⟩ := exec_cfg_rb h
    exact ⟨hrb, State.rbByte_congr hcfg hrb⟩
  · obtain ⟨hcfg, hrb⟩ := h.cfg_rb
    rw [State.rbByte_congr (s := State.resetWith c) hcfg hrb, resetWith_rbByte]

/-! ### Operations of the two sides commute (R46) -/

theorem SameWireless.symm {s t : State} (h : SameWireless s t) : SameWireless t s where
  hist := h.hist.symm
  hlen := h.hlen.symm
  est := h.est.symm
  refSum := h.refSum.symm
  refCnt := h.refCnt.symm
  mode := h.mode.symm
  calSum := h.calSum.symm
  calCnt := h.calCnt.symm
  calTries := h.calTries.symm
  calOk := h.calOk.symm
  active := h.active.symm

theorem exec_inbox {i : Instr} {s t : State} (h : exec i s = .next t) : t.inbox = s.inbox := by
  obtain ⟨u, r, he, rfl⟩ := exec_next h
  exact he.inbox_results.1

theorem exec_sameWireless {i : Instr} {s t : State} (hi : wireSide i = true) (h : exec i s = .next t) :
    SameWireless s t := by
  obtain ⟨u, r, he, rfl⟩ := exec_next h
  exact (he.sameWireless hi).emit r

theorem exec_sameWire {i : Instr} {s t : State} (hi : wirelessSide i = true) (h : exec i s = .next t) :
    SameWire s t := by
  obtain ⟨u, r, he, rfl⟩ := exec_next h
  exact (he.sameWire hi).emit r

/-- A wireless-side operation that completes after a wire-side one does the same before it, over the old wire side. -/
theorem exec_wireless_before_wire {i j : Instr} {s t u : State} (hi : wireSide i = true)
    (hj : wirelessSide j = true) (ht : exec i s = .next t) (hu : exec j t = .next u) :
    ∃ (v : State) (r : Result), u = v.emit r ∧ v.results = t.results ∧
      exec j s = .next ((v.withWireOf s).emit r) := by
  have hst : s = t.withWireOf s := (exec_sameWireless hi ht).symm.eq_withWireOf (exec_cfg_rb ht).1
  obtain ⟨v, r, huv, hres, hexec⟩ := exec_withWireOf s hj hu
  rw [← hst] at hexec
  exact ⟨v, r, huv, hres, hexec⟩

/-- A wire-side operation does after a wireless-side one what it does before it, over the new wireless side. -/
theorem exec_wire_after_wireless {i j : Instr} {s t t' : State} (hi : wireSide i = true)
    (hj : wirelessSide j = true) (ht : exec i s = .next t) (ht' : exec j s = .next t') :
    ∃ (v : State) (r : Result), t = v.emit r ∧ v.results = s.results ∧
      exec i t' = .next ((v.withWirelessOf t').emit r) := by
  have hst' : t' = s.withWirelessOf t' := (exec_sameWire hj ht').eq_withWirelessOf (exec_cfg_rb ht').1.symm
  obtain ⟨v, r, htv, hres, hexec⟩ := exec_withWirelessOf t' hi ht
  rw [← hst'] at hexec
  exact ⟨v, r, htv, hres, hexec⟩

/-- A state put together from two operations' sides is the same whichever operation returned its result last, up to the
list of results. -/
theorem withWirelessOf_emit_comm {s v w : State} (hinbox : w.inbox = s.inbox) (a b : Result) :
    (v.emit a).withWirelessOf (w.emit b) =
      { (v.withWirelessOf ((w.withWireOf s).emit b)).emit a with results := (w.emit b).results } := by
  simp [State.withWirelessOf, State.withWireOf, hinbox]

/-- Settles O57: in the other order each operation runs over its own side unchanged, so it does the same, and the two
final states take the wire side from one operation and the wireless side from the other. -/
theorem wireAndWirelessOperationsCommute : Obligations.WireAndWirelessOperationsCommute := by
  intro i j s t u hi hj ht hu
  obtain ⟨vj, rj, rfl, hresj, ht'⟩ := exec_wireless_before_wire hi hj ht hu
  obtain ⟨vi, ri, rfl, hresi, hu'⟩ := exec_wire_after_wireless hi hj ht ht'
  have hinbox : vj.inbox = s.inbox := (exec_inbox hu).trans (exec_inbox ht)
  refine ⟨_, _, ri, rj, ht', hu', ?_, ?_, ?_⟩
  · simp [hresj, hresi]
  · simp [State.withWirelessOf, State.withWireOf]
  · calc vj.emit rj
        = (vi.emit ri).withWirelessOf (vj.emit rj) :=
          (exec_sameWire hj hu).eq_withWirelessOf (exec_cfg_rb hu).1.symm
      _ = _ := withWirelessOf_emit_comm hinbox ri rj

end Sys2Proof.Machine

/-! The proofs of the family 30_encoding.md. The field checks of R70's table are inverted row by row for the host
commands; a received frame that passes the checks of R61 is the frame of its own fields (`exists_eq_requestFrame`), and
what the decoder and `Process` do with such a frame is said once each. -/

namespace Sys2Proof.Machine

/-! ### The field checks of a command that meets them (R70) -/

@[simp] theorem needZeroArg_zero (k : Decoded) : needZeroArg 0#32 k = k := if_pos rfl

@[simp] theorem needNoPayload_nil (k : Decoded) : needNoPayload [] k = k := if_pos rfl

@[simp] theorem needRssiArg_rssiArg (r : Byte) (k : Byte → Decoded) : needRssiArg (rssiArg r) k = k r := by
  rw [needRssiArg, if_pos ((extractHigh_eq_zero _).mpr (rssiArg_toNat_lt r)), rssiArg_extractLsb']

theorem needPayload_fits {p : List Byte} (k : Decoded) (h : p.length ≤ maxPayload) : needPayload p k = k := if_pos h

theorem needFrame_fits {p : List Byte} (k : Decoded) (h : p.length ≤ fbCap) : needFrame p k = k := if_pos h

/-- The rows of R70 with `arg` 0 and no payload: CALSTART, CONN, DISC. -/
theorem needZeroArg_noPayload_ok {arg : Word} {p : List Byte} {i j : Instr}
    (h : needZeroArg arg (needNoPayload p (.ok j)) = .ok i) : arg = 0 ∧ p = [] ∧ j = i := by
  obtain ⟨harg, h⟩ := needZeroArg_ok h
  obtain ⟨hp, h⟩ := needNoPayload_ok h
  exact ⟨harg, hp, Decoded.ok.inj h⟩

/-- The rows of R70 with a sample in `arg` and no payload: SAMPLE, DIST, CALPOLL. -/
theorem needRssiArg_noPayload_ok {arg : Word} {p : List Byte} {i : Instr} {j : Byte → Instr}
    (h : needRssiArg arg (fun r => needNoPayload p (.ok (j r))) = .ok i) :
    ∃ r, arg = rssiArg r ∧ p = [] ∧ j r = i := by
  obtain ⟨harg, h⟩ := needRssiArg_ok h
  obtain ⟨hp, h⟩ := needNoPayload_ok h
  exact ⟨_, (rssiArg_of_low harg).symm, hp, Decoded.ok.inj h⟩

/-! ### Frames closed with their checksum (R60, R124) -/

theorem take_closeFrame (body : List Byte) : (closeFrame body).take ((closeFrame body).length - 2) = body := by
  rw [closeFrame_length, Nat.add_sub_cancel, closeFrame, List.take_left]

/-- A frame that passes the check of R124 is its own body closed again. -/
theorem eq_closeFrame_of_crcMatches {f : List Byte} (h : crcMatches f = true) :
    f = closeFrame (f.take (f.length - 2)) := by
  rw [closeFrame, ← eq_of_beq h, List.take_append_drop]

/-! ### The request frame (R61) -/

section Request
variable (addr : Byte) (start count : Half) (extra : List Byte)

@[simp] theorem requestFrame_length : (requestFrame addr start count extra).length = minFrame + extra.length := by
  simp [requestFrame, minFrame]
  omega

@[simp] theorem crcMatches_requestFrame : crcMatches (requestFrame addr start count extra) = true :=
  crcMatches_closeFrame _

theorem requestFrame_addr : (requestFrame addr start count extra).getD 0 0 = addr := rfl

theorem requestFrame_function : (requestFrame addr start count extra).getD 1 0 = fcRead := rfl

theorem requestFrame_start : be16 ((requestFrame addr start count extra).getD 2 0)
    ((requestFrame addr start count extra).getD 3 0) = start := be16_be16bytes start

theorem requestFrame_count : be16 ((requestFrame addr start count extra).getD 4 0)
    ((requestFrame addr start count extra).getD 5 0) = count := be16_be16bytes count

theorem requestFrame_extra : ((requestFrame addr start count extra).take
    ((requestFrame addr start count extra).length - 2)).drop 6 = extra := by
  rw [requestFrame, take_closeFrame]
  rfl

theorem requestFields_requestFrame :
    requestFields (requestFrame addr start count extra) = .mbReadHoldingRegisters addr start count extra := by
  rw [requestFields, requestFrame_addr, requestFrame_start, requestFrame_count, requestFrame_extra]

/-- The frame of a request short enough for the buffer passes every check of the decoder. -/
theorem decodeRequest_requestFrame (hfits : minFrame + extra.length ≤ fbCap) :
    decodeRequest (requestFrame addr start count extra) = .ok (.mbReadHoldingRegisters addr start count extra) := by
  rw [decodeRequest, requestFrame_function, requestFields_requestFrame]
  simp [Nat.not_lt.mpr hfits]

/-- A request's frame passes every check of `Process` but that of the address. -/
theorem process_requestFrame (s : State) : process s (requestFrame addr start count extra) =
    if addr = s.cfg.slaveAddr then readHolding s start count else [] := by
  rw [process, requestFrame_addr, requestFrame_function, requestFrame_start, requestFrame_count]
  simp

/-- The frame of R61 by its bytes. -/
theorem closeFrame_eq_requestFrame (sh sl ch cl : Byte) :
    closeFrame (addr :: fcRead :: sh :: sl :: ch :: cl :: extra) =
      requestFrame addr (be16 sh sl) (be16 ch cl) extra := by
  rw [requestFrame, be16bytes_be16, be16bytes_be16]
  rfl

end Request

/-- A frame that passes the checks of length, CRC and function code is a request's frame. -/
theorem exists_eq_requestFrame {f : List Byte} (hlen : minFrame ≤ f.length) (hcrc : crcMatches f = true)
    (hfc : f.getD 1 0 = fcRead) : ∃ addr start count extra, f = requestFrame addr start count extra := by
  have hf := eq_closeFrame_of_crcMatches hcrc
  generalize f.take (f.length - 2) = body at hf
  subst hf
  match body, hlen, hfc with
  | addr :: _ :: sh :: sl :: ch :: cl :: extra, _, rfl =>
    exact ⟨addr, be16 sh sl, be16 ch cl, extra, closeFrame_eq_requestFrame addr extra sh sl ch cl⟩

/-- Everything a received frame can be that decodes: the frame of the request it decodes to. -/
theorem decodeRequest_ok {f : List Byte} {i : Instr} (h : decodeRequest f = .ok i) :
    ∃ addr start count extra, minFrame + extra.length ≤ fbCap ∧ f = requestFrame addr start count extra ∧
      i = .mbReadHoldingRegisters addr start count extra := by
  unfold decodeRequest at h
  split_ifs at h with hlong hshort hcrc hfc
  obtain ⟨addr, start, count, extra, rfl⟩ :=
    exists_eq_requestFrame (Nat.not_lt.mp hshort) (by simpa using hcrc) hfc
  rw [requestFrame_length, Nat.not_lt] at hlong
  rw [requestFields_requestFrame] at h
  exact ⟨addr, start, count, extra, hlong, rfl, (Decoded.ok.inj h).symm⟩

/-! ### The round trips -/

/-- Settles O3: an encoded command meets the field checks of its row, an encoded request those of its frame. -/
theorem decodeOfEncodeIsTheInstruction : Obligations.DecodeOfEncodeIsTheInstruction := by
  intro i e hwf henc
  cases i with
  | crc | ingest =>
    cases henc
    simp [decode, decodeCommand, needPayload_fits _ (of_decide_eq_true hwf)]
  | proc =>
    cases henc
    simp [decode, decodeCommand, needFrame_fits _ (of_decide_eq_true hwf)]
  | sample | dist | calpoll | poll | calstart | conn | disc =>
    cases henc
    simp [decode, decodeCommand]
  | rd =>
    cases henc
    exact if_pos hwf
  | mbReadHoldingRegisters addr start count extra =>
    cases henc
    exact decodeRequest_requestFrame addr start count extra (of_decide_eq_true hwf)
  | mbReadHoldingRegistersResponse | mbExceptionIllegalDataAddress => cases henc

/-- The table of R70 read backwards, row by row. -/
theorem encode_of_decodeCommand {c : Command} {i : Instr} (h : decodeCommand c = .ok i) :
    i.wellFormed = true ∧ encode i = some (.command c) := by
  obtain ⟨⟨⟨op, hlt⟩⟩, arg, p⟩ := c
  unfold decodeCommand at h
  split at h
  case h_1 hop =>
    cases hop
    obtain ⟨rfl, h⟩ := needZeroArg_ok h
    obtain ⟨hp, ⟨⟩⟩ := needPayload_ok h
    exact ⟨decide_eq_true hp, rfl⟩
  case h_2 hop =>
    cases hop
    obtain ⟨hp, ⟨⟩⟩ := needPayload_ok h
    exact ⟨decide_eq_true hp, rfl⟩
  case h_3 hop =>
    cases hop
    obtain ⟨rfl, ⟨⟩⟩ := needNoPayload_ok h
    exact ⟨rfl, rfl⟩
  case h_4 hop =>
    cases hop
    obtain ⟨rfl, h⟩ := needZeroArg_ok h
    obtain ⟨hp, ⟨⟩⟩ := needFrame_ok h
    exact ⟨decide_eq_true hp, rfl⟩
  case h_5 hop | h_6 hop | h_8 hop =>
    cases hop
    obtain ⟨r, rfl, rfl, rfl⟩ := needRssiArg_noPayload_ok h
    exact ⟨rfl, rfl⟩
  case h_7 hop | h_9 hop | h_10 hop =>
    cases hop
    obtain ⟨rfl, rfl, rfl⟩ := needZeroArg_noPayload_ok h
    exact ⟨rfl, rfl⟩
  case h_11 hop =>
    cases hop
    obtain ⟨rfl, h⟩ := needNoPayload_ok h
    split_ifs at h with hmapped
    cases h
    exact ⟨hmapped, rfl⟩
  case h_12 => cases h

/-- Settles O4: a command by the table of R70, a frame because it is the frame of its own fields. -/
theorem encodeOfDecodedIsTheInput : Obligations.EncodeOfDecodedIsTheInput := by
  intro e i h
  cases e with
  | command c => exact encode_of_decodeCommand h
  | request f =>
    obtain ⟨addr, start, count, extra, hfits, rfl, rfl⟩ := decodeRequest_ok h
    exact ⟨decide_eq_true hfits, rfl⟩

/-! ### The refused commands (R72) -/

theorem step_refuses_iff {s : State} {c : Command} {rest : List Command} (hin : s.inbox = c :: rest) :
    (∃ e, step s = .refused (.rejected e) ∧ decodeCommand c = .rejected e) ↔ (decodeCommand c).isRejected :=
  have ⟨_, hrefuses, _⟩ := stepRunsTheDecodedCommand
  ⟨fun ⟨e, _, hdec⟩ => ⟨e, hdec⟩, fun ⟨e, hdec⟩ => ⟨e, hrefuses s c rest e hin hdec, hdec⟩⟩

/-- The map of R30 by its bounds. -/
theorem rdMapped_iff_bounds (a : Word) : rdMapped a = true ↔
    a.toNat ∈ [0x00, 0x04, 0x08, 0x0C, 0x10, 0x14, 0x18, 0x1C] ∨
      (0x40 ≤ a.toNat ∧ a.toNat ≤ 0x7F) ∨ (0x80 ≤ a.toNat ∧ a.toNat ≤ 0x93) := by
  rw [rdMapped_iff, exists_lt_eq_add_iff, exists_lt_eq_add_iff]
  simp only [rdWordAddrs, fbCap, rbSize, Nat.reduceAdd, Nat.lt_succ_iff]

theorem rdRow_isRejected (a : Word) :
    (if rdMapped a then Decoded.ok (.rd a) else .rejected (.reservedAddress a)).isRejected ↔ ¬ rdMapped a = true := by
  split <;> simp [*]

/-- Settles O2: each row of R70's table is refused as its field checks say, every other op always. -/
theorem refusedCommandsAreThoseOfTheTable : Obligations.RefusedCommandsAreThoseOfTheTable := by
  intro c rest s hin
  rw [step_refuses_iff hin, ← rdMapped_iff_bounds, decodeCommand]
  simp only [← BitVec.toNat_inj]
  split
  case h_12 =>
    have hreserved : c.op.toNat = 0 ∨ 0x0C ≤ c.op.toNat := by
      simp only [imp_false] at *
      omega
    exact iff_of_true ⟨_, rfl⟩ (.inl hreserved)
  all_goals next hop => simp [hop, rdRow_isRejected]

/-! ### The response frames (R62, R63) -/

/-- A response's frame passes the checks of its reader, whose fields are those it was written from. -/
theorem parseResponse_frame {r : Response} (hwf : r.wellFormed = true) : parseResponse r.frame = .ok r := by
  cases r with
  | data addr bytes =>
    have hbank : bytes.length ≤ 20 := of_decide_eq_true hwf
    have hlen : (closeFrame ([addr, fcRead, BitVec.ofNat 8 bytes.length] ++ bytes)).length = 5 + bytes.length := by
      simp
      omega
    have hcount : (BitVec.ofNat 8 bytes.length).toNat = bytes.length := by
      rw [BitVec.toNat_ofNat]
      omega
    rw [Response.frame, parseResponse, take_closeFrame, crcMatches_closeFrame, hlen, if_neg (by omega),
      if_neg (by decide)]
    exact (if_pos rfl).trans <| if_pos ⟨congrArg (5 + ·) hcount.symm, Nat.add_le_add_left hbank 5⟩
  | illegalDataAddress addr =>
    rw [Response.frame, parseResponse, crcMatches_closeFrame]
    rfl

/-- Settles O5: both readings of a frame go through the response it is parsed to. -/
theorem responseFramesReadBack : Obligations.ResponseFramesReadBack := by
  refine ⟨fun r => parseResponse_frame, fun addr bytes start count hcount hbank => ?_, fun addr start count => ?_⟩
  · have hwf : (Response.data addr bytes).wellFormed = true := decide_eq_true hbank
    rw [decodeResponse, parseResponse_frame hwf]
    exact if_pos hcount
  · rw [decodeResponse, parseResponse_frame rfl]

/-! ### PROC -/

theorem execProc_overlong {f : List Byte} {s : State} (h : fbCap < f.length) :
    execProc f s = .refused (.rejected .frameTooLong) := if_pos h

/-- Settles O18, from the equation of PROC on an overlong frame. -/
theorem procRefusesOverlongFrames : Obligations.ProcRefusesOverlongFrames :=
  fun _ _ hlong => execProc_overlong hlong

/-- Settles O22: the frame fits, passes every check of `Process` but the address, and its fields are the operands. -/
theorem wireRequestIsProcOfItsFrame : Obligations.WireRequestIsProcOfItsFrame := by
  intro s addr start count extra hfits
  have hlen : (requestFrame addr start count extra).length ≤ fbCap := (requestFrame_length ..).trans_le hfits
  calc exec (.mbReadHoldingRegisters addr start count extra) s
      = .next (s.emit (.bytes (if addr = s.cfg.slaveAddr then readHolding s start count else []))) :=
        execMbReadHoldingRegisters_fits hfits
    _ = .next (s.emit (.bytes (process s (requestFrame addr start count extra)))) := by rw [process_requestFrame]
    _ = exec (.proc (requestFrame addr start count extra)) s := (execProc_fits hlen).symm

/-- Settles O6, by evaluation: the words are literals. -/
theorem writtenOutWordsDecode : Obligations.WrittenOutWordsDecode := by
  refine ⟨rfl, rfl, rfl, rfl, ?_, ?_, ?_⟩ <;> decide

end Sys2Proof.Machine

/-! The proofs of the family 40_crc16.md. The table's entries are eight shifts of the index (R91), so the table step is
eight shifts of the value with the byte XORed in (`crcStep_eq_crcShift8`, R96). A shift loses nothing, which makes the
step injective in the running value and in the byte; with the residue 0 of a closed frame (R95) no changed byte passes
the check (R97). -/

namespace Sys2Proof.Machine

/-! ### The step by the table (R92) -/

/-- The table's index as R92 writes it, on 16 bits. -/
theorem tableIndex_eq (c : Half) (b : Byte) :
    ((c ^^^ b.setWidth 16) &&& 0x00FF).setWidth 8 = c.extractLsb' 0 8 ^^^ b := by
  have hmask : (0x00FF : Half).setWidth 8 = BitVec.allOnes 8 := rfl
  rw [BitVec.setWidth_and, BitVec.setWidth_xor, hmask, BitVec.and_allOnes, BitVec.setWidth_setWidth_of_le _ (by decide),
    BitVec.setWidth_eq, BitVec.setWidth_eq_extractLsb' (by decide)]

/-- Settles O7, from the append law of the checksum. -/
theorem checksumFollowsTheTableStep : Obligations.ChecksumFollowsTheTableStep := by
  refine ⟨rfl, fun p b => ?_⟩
  rw [crc16_append_byte, crcStep, tableIndex_eq]

/-- Settles O12: the meaning of CRC is the emission of this one result. -/
theorem crcReturnsTheChecksum : Obligations.CrcReturnsTheChecksum :=
  fun _ _ => rfl

/-! ### The table by its generation rule (R91) -/

/-- The listing of R91 against its generation rule, entry by entry. -/
theorem crcTab_eq_crcShift8 : ∀ i : Byte, crcTab i = crcShift8 (i.setWidth 16) := by
  decide +kernel

/-- Settles O8: `crcShift8` is the eight steps of R91. -/
theorem tableEntriesAreEightShifts : Obligations.TableEntriesAreEightShifts :=
  crcTab_eq_crcShift8

/-! ### The step by eight shifts (R96) -/

/-- A byte moved up by at most eight places loses no bit, so one place back down undoes one place up. -/
theorem shiftLeft_succ_ushiftRight_one (h : Byte) {k : Nat} (hk : k < 8) :
    (h.setWidth 16 <<< (k + 1)) >>> 1 = h.setWidth 16 <<< k := by
  ext i hi
  rcases Nat.lt_or_ge i 15 with hlow | htop
  · have hnext : i + 1 < 16 := by omega
    simp [hnext, Nat.add_comm 1 i]
  · have hnext : ¬ 1 + i < 16 := by omega
    have hzero : h.getLsbD (i - k) = false := h.getLsbD_of_ge _ (by omega)
    simp [hnext, hzero]

/-- A byte above the lowest bit moves down by one place and does not meet the polynomial. -/
theorem crcShift_xor_shiftLeft (c : Half) (h : Byte) {k : Nat} (hk : k < 8) :
    crcShift (c ^^^ h.setWidth 16 <<< (k + 1)) = crcShift c ^^^ h.setWidth 16 <<< k := by
  have hbit : (c ^^^ h.setWidth 16 <<< (k + 1)).getLsbD 0 = c.getLsbD 0 := by simp
  rw [crcShift, crcShift, hbit, BitVec.ushiftRight_xor_distrib, shiftLeft_succ_ushiftRight_one h hk]
  split
  · rw [BitVec.xor_assoc, BitVec.xor_assoc, BitVec.xor_comm (h.setWidth 16 <<< k)]
  · rfl

/-- Eight shifts bring the high byte down unchanged. -/
theorem crcShift8_xor_shiftLeft (c : Half) (h : Byte) :
    crcShift8 (c ^^^ h.setWidth 16 <<< 8) = crcShift8 c ^^^ h.setWidth 16 := by
  simp [crcShift8, crcShift_xor_shiftLeft]

theorem ushiftRight_eight_eq (c : Half) : c >>> 8 = (c.extractLsb' 8 8).setWidth 16 := by
  ext i hi
  rcases Nat.lt_or_ge i 8 with hlow | hhigh
  · simp [hlow]
  · simp [Nat.not_lt.mpr hhigh, c.getLsbD_of_ge (8 + i) (by omega)]

/-- A value is its low byte with its high byte XORed in above. -/
theorem eq_low_xor_high (c : Half) :
    c = (c.extractLsb' 0 8).setWidth 16 ^^^ (c.extractLsb' 8 8).setWidth 16 <<< 8 := by
  ext i hi
  rcases Nat.lt_or_ge i 8 with hlow | hhigh
  · simp [hlow, hi]
  · have hsub : i - 8 < 8 := by omega
    simp [Nat.not_lt.mpr hhigh, hsub, Nat.add_sub_of_le hhigh, BitVec.getLsbD_eq_getElem hi]

/-- One byte of the checksum by the table is the byte XORed into the low 8 bits and eight shifts. -/
theorem crcStep_eq_crcShift8 (c : Half) (b : Byte) : crcStep c b = crcShift8 (c ^^^ b.setWidth 16) := by
  have hsplit : (c.extractLsb' 0 8 ^^^ b).setWidth 16 ^^^ (c.extractLsb' 8 8).setWidth 16 <<< 8 =
      c ^^^ b.setWidth 16 := by
    rw [BitVec.setWidth_xor, BitVec.xor_assoc, BitVec.xor_comm (b.setWidth 16), ← BitVec.xor_assoc, ← eq_low_xor_high]
  rw [crcStep, crcTab_eq_crcShift8, ushiftRight_eight_eq, BitVec.xor_comm, ← crcShift8_xor_shiftLeft, hsplit]

theorem crcFrom_eq_foldl (c : Half) (s : List Byte) :
    crcFrom c s = s.foldl (fun c b => crcShift8 (c ^^^ b.setWidth 16)) c := by
  induction s generalizing c with
  | nil => rfl
  | cons b s ih => rw [crcFrom, ih, crcStep_eq_crcShift8, List.foldl_cons]

/-- The model's own serial form is the checksum. -/
theorem crc16_eq_crc16Serial (s : List Byte) : crc16 s = crc16Serial s := crcFrom_eq_foldl _ s

/-- Settles O9: the serial form written out is the model's `crc16Serial`. -/
theorem checksumEqualsBitSerialForm : Obligations.ChecksumEqualsBitSerialForm :=
  crc16_eq_crc16Serial

/-! ### The residue of a closed frame (R95) -/

/-- The value's own low byte selects entry 0 of the table, so only the high byte is left. -/
theorem crcStep_own_low_byte (c : Half) : crcStep c (c.extractLsb' 0 8) = c >>> 8 := by
  have hzero : crcTab 0#8 = 0#16 := rfl
  rw [crcStep, BitVec.xor_self, hzero, BitVec.xor_zero]

/-- Each byte of the value's own encoding is the running value's low byte, so both halves are shifted out. -/
theorem crcFrom_le16 (c : Half) : crcFrom c (le16 c) = 0 := by
  have hhigh : c.extractLsb' 8 8 = (c >>> 8).extractLsb' 0 8 := by
    ext i hi
    simp
  have hzero : c >>> 8 >>> 8 = 0 := by
    ext i hi
    simp
  rw [le16, crcFrom, crcStep_own_low_byte, crcFrom, hhigh, crcStep_own_low_byte, hzero, crcFrom]

theorem crc16_closeFrame (body : List Byte) : crc16 (closeFrame body) = 0 := by
  rw [crc16, closeFrame, crcFrom_append]
  exact crcFrom_le16 _

/-- Settles O10: a sequence followed by its checksum is a closed frame, which leaves 0 and passes the check. -/
theorem checksumOfClosedFrameIsZero : Obligations.ChecksumOfClosedFrameIsZero :=
  fun p => ⟨crc16_closeFrame p, crcMatches_closeFrame p⟩

/-- A frame that passes the check of R124 has checksum 0. -/
theorem crc16_eq_zero_of_crcMatches {f : List Byte} (h : crcMatches f = true) : crc16 f = 0 := by
  rw [eq_closeFrame_of_crcMatches h, crc16_closeFrame]

/-! ### Changed bytes (R97) -/

/-- The bit shifted out comes back as the top bit, since that of the polynomial is 1. -/
theorem crcShift_getLsbD_15 (c : Half) : (crcShift c).getLsbD 15 = c.getLsbD 0 := by
  unfold crcShift
  split
  · next hbit => simpa using hbit
  · next hbit => simpa using hbit

/-- A shift loses nothing: its top bit tells whether the polynomial was XORed in, the rest is the value shifted. -/
theorem crcShift_injective : Function.Injective crcShift := by
  intro a b h
  have hbit : a.getLsbD 0 = b.getLsbD 0 := by rw [← crcShift_getLsbD_15, h, crcShift_getLsbD_15]
  have hrest : a >>> 1 = b >>> 1 := by
    unfold crcShift at h
    rw [hbit] at h
    split at h
    · exact (BitVec.xor_left_inj _).mp h
    · exact h
  ext i hi
  cases i with
  | zero => exact hbit
  | succ i => simpa [Nat.add_comm 1 i, BitVec.getLsbD_eq_getElem hi] using congrArg (·.getLsbD i) hrest

theorem crcShift8_injective : Function.Injective crcShift8 := crcShift_injective.iterate 8

theorem crcStep_left_injective (b : Byte) : Function.Injective (crcStep · b) := by
  intro c d h
  simp only [crcStep_eq_crcShift8] at h
  exact (BitVec.xor_left_inj _).mp (crcShift8_injective h)

theorem crcStep_right_injective (c : Half) : Function.Injective (crcStep c) := by
  intro a b h
  simp only [crcStep_eq_crcShift8] at h
  have hword : a.setWidth 16 = b.setWidth 16 := (BitVec.xor_right_inj _).mp (crcShift8_injective h)
  simpa using congrArg (BitVec.setWidth 8) hword

theorem crcFrom_injective (q : List Byte) : Function.Injective (crcFrom · q) := by
  induction q with
  | nil => exact Function.injective_id
  | cons b q ih => exact ih.comp (crcStep_left_injective b)

/-- Two sequences that differ in one byte have different checksums. -/
theorem crc16_ne_of_byte_ne (p q : List Byte) {a b : Byte} (h : a ≠ b) :
    crc16 (p ++ a :: q) ≠ crc16 (p ++ b :: q) := by
  simp only [crc16, crcFrom_append, crcFrom]
  exact fun heq => h (crcStep_right_injective _ (crcFrom_injective q heq))

theorem crc16_set_ne {f : List Byte} {k : Nat} {b : Byte} (hk : k < f.length) (hb : b ≠ f.getD k 0) :
    crc16 (f.set k b) ≠ crc16 f := by
  have hf : f = f.take k ++ f.getD k 0 :: f.drop (k + 1) := by
    rw [List.getD_eq_getElem _ _ hk, ← List.drop_eq_getElem_cons, List.take_append_drop]
  rw [List.set_eq_take_append_cons_drop, if_pos hk]
  conv_rhs => rw [hf]
  exact crc16_ne_of_byte_ne _ _ hb

/-- A frame that fails the check of R124 gets no response, whatever its length and address. -/
theorem process_badCrc {f : List Byte} (s : State) (h : crcMatches f = false) : process s f = [] := by
  unfold process
  split
  · rfl
  · split
    · rfl
    · rw [h]
      rfl

/-- Settles O11: both frames passing the check would have checksum 0, but a changed byte changes the checksum. -/
theorem corruptedByteGivesNoResponse : Obligations.CorruptedByteGivesNoResponse := by
  intro s f k b _ hfits _ hcrc hk hb
  have hbad : crcMatches (f.set k b) = false := by
    rw [Bool.eq_false_iff]
    intro hgood
    apply crc16_set_ne hk hb
    rw [crc16_eq_zero_of_crcMatches hgood, crc16_eq_zero_of_crcMatches hcrc]
  calc exec (.proc (f.set k b)) s
      = .next (s.emit (.bytes (process s (f.set k b)))) := execProc_fits (by rwa [List.length_set])
    _ = .next (s.emit (.bytes [])) := by rw [process_badCrc s hbad]

end Sys2Proof.Machine

/-! The proofs of the family 41_frame_assembler.md. Storing bytes that fit appends them to the frame in the buffer
(`frame_storeBytes`) and a POLL within the silence threshold changes nothing but the results (`runInstrs_quietPolls`);
`Assembled` carries the frame so far along a list of arrivals (R106). -/

namespace Sys2Proof.Machine

/-! ### Storing bytes that fit (R101) -/

section Store
variable {s : State} {bs : List Byte} (now : Word)

/-- At most 64 bytes held fit the seven bits of CUR (R109). -/
theorem storeBytes_cur_toNat (hfits : s.cur.toNat + bs.length ≤ fbCap) :
    (s.storeBytes now bs).cur.toNat = s.cur.toNat + bs.length := by
  unfold fbCap at hfits
  rw [State.storeBytes_cur, BitVec.toNat_ofNat, Nat.mod_eq_of_lt (by omega)]

theorem storeBytes_fbByte (hfb : Memory.wf fbReset fbCap s.fb = true) (hfits : s.cur.toNat + bs.length ≤ fbCap)
    (a : Nat) :
    (s.storeBytes now bs).fbByte a =
      if s.cur.toNat ≤ a ∧ a < s.cur.toNat + bs.length then bs.getD (a - s.cur.toNat) 0 else s.fbByte a :=
  Memory.read_writeList bs hfb hfits a

theorem frame_getElem (s : State) (i : Nat) (h : i < s.frame.length) : s.frame[i] = s.fbByte i := by
  simp [State.frame]

/-- The bytes stored at the cursor stand behind the frame held so far. -/
theorem frame_storeBytes (hfb : Memory.wf fbReset fbCap s.fb = true) (hfits : s.cur.toNat + bs.length ≤ fbCap) :
    (s.storeBytes now bs).frame = s.frame ++ bs := by
  apply List.ext_getElem
  · simp only [State.frame_length, List.length_append, storeBytes_cur_toNat now hfits]
  · intro i hi _
    rw [State.frame_length, storeBytes_cur_toNat now hfits] at hi
    rw [frame_getElem, storeBytes_fbByte now hfb hfits, List.getElem_append]
    by_cases hold : i < s.cur.toNat
    · simp [hold, Nat.not_le.mpr hold, frame_getElem]
    · have hnew : i - s.cur.toNat < bs.length := by omega
      simp [hold, Nat.le_of_not_lt hold, hi, hnew]

end Store

theorem roomFor_fits {s : State} {n : Nat} (h : s.cur.toNat + n ≤ fbCap) : s.roomFor n = n :=
  Nat.min_eq_left (by omega)

/-- Settles O13: with no room nothing is stored, with room the bytes that fit are stored at the cursor. -/
theorem ingestStoresWhatFits : Obligations.IngestStoresWhatFits := by
  intro now p s hcur hfb
  have hroom : min p.length (64 - s.cur.toNat) = s.roomFor p.length := rfl
  rw [hroom]
  obtain hzero | hpos := Nat.eq_zero_or_pos (s.roomFor p.length)
  · refine ⟨_, execIngest_full hcur hzero, ?_, fun a => ?_, ?_, ?_, rfl⟩
    · simp [hzero]
    · rw [if_neg (by omega)]
      rfl
    · simp [hzero]
    · simp [hzero]
  · have hlen := take_roomFor_length s p
    have hle := roomFor_le s p.length
    have hfits : s.cur.toNat + (p.take (s.roomFor p.length)).length ≤ fbCap := by
      unfold fbCap at *
      omega
    refine ⟨_, execIngest_room hcur hpos, ?_, fun a => ?_, ?_, rfl, rfl⟩
    · rw [State.emit_cur, storeBytes_cur_toNat now hfits, hlen]
    · have hread := storeBytes_fbByte now hfb hfits a
      rw [hlen] at hread
      refine hread.trans (if_ctx_congr Iff.rfl (fun ha => ?_) fun _ => rfl)
      have hk : a - s.cur.toNat < s.roomFor p.length := by omega
      rw [List.getD_eq_getElem?_getD, List.getElem?_take_of_lt hk, List.getD_eq_getElem?_getD]
    · rw [if_pos hpos]
      rfl

/-! ### Polling (R103, R104) -/

/-- Elapsed time as R103 writes it, on integers. -/
theorem elapsed_eq_emod (s : State) (now : Word) :
    (s.elapsed now : Int) = ((now.toNat : Int) - s.lastRx.toNat) % 4294967296 := by
  rw [State.elapsed, BitVec.toNat_sub]
  have hlast := s.lastRx.isLt
  omega

/-- Settles O15, from the two equations of POLL. -/
theorem pollDispatchesAfterSilence : Obligations.PollDispatchesAfterSilence := by
  intro now s hcap
  rw [← elapsed_eq_emod]
  split
  · next hdue =>
    obtain ⟨hcur, hsilence⟩ := hdue
    exact execPoll_dispatch hcur (Int.ofNat_lt.mp hsilence) hcap
  · next hquiet =>
    apply execPoll_quiet
    rw [not_and_or, not_not] at hquiet
    exact hquiet.imp_right fun h => Int.ofNat_le.mp (Int.not_lt.mp h)

/-! ### Assembling a frame from chunks (R106) -/

theorem runInstrs_cons {i : Instr} {is : List Instr} {s t : State} (h : exec i s = .next t) :
    runInstrs (i :: is) s = runInstrs is t := by
  rw [runInstrs, h]

theorem runInstrs_append {is js : List Instr} {s t : State} (h : runInstrs is s = .next t) :
    runInstrs (is ++ js) s = runInstrs js t := by
  induction is generalizing s with
  | nil =>
    cases h
    rfl
  | cons i is ih =>
    rw [runInstrs] at h
    split at h
    · next u hu => exact (runInstrs_cons hu).trans (ih h)
    all_goals cases h

/-- POLLs within the silence threshold of the last arrival only return results. -/
theorem runInstrs_quietPolls {polls : List Word} {s : State} (hquiet : ∀ p ∈ polls, s.elapsed p ≤ tSilence) :
    ∃ rs, runInstrs (polls.map .poll) s = .next { s with results := rs } := by
  induction polls generalizing s with
  | nil => exact ⟨s.results, rfl⟩
  | cons p polls ih =>
    obtain ⟨hp, hpolls⟩ := List.forall_mem_cons.mp hquiet
    obtain ⟨rs, hrun⟩ := ih (s := s.emit (.bytes [])) hpolls
    have hexec : exec (.poll p) s = .next (s.emit (.bytes [])) := execPoll_quiet (.inr hp)
    exact ⟨rs, (runInstrs_cons hexec).trans hrun⟩

/-- `t` is `s` some arrivals later, with the bytes `bs` in its buffer and nothing sent. -/
structure Assembled (s : State) (bs : List Byte) (t : State) : Prop where
  wire : t.WireInv
  frame : t.frame = bs
  tx : t.tx = s.tx
  bank : t.cfg = s.cfg ∧ t.rb = s.rb

theorem assembled_nil {s : State} (hs : s.WireInv) (hcur : s.cur = 0) : Assembled s [] s :=
  ⟨hs, by simp [State.frame, hcur], rfl, rfl, rfl⟩

theorem Assembled.cur_toNat {s t : State} {bs : List Byte} (h : Assembled s bs t) : t.cur.toNat = bs.length := by
  rw [← State.frame_length, h.frame]

theorem exec_keeps_wireInv {i : Instr} {s t : State} (hs : s.WireInv) (h : exec i s = .next t) : t.WireInv := by
  obtain ⟨u, r, he, rfl⟩ := exec_next h
  exact he.wireInv hs

/-- A non-empty chunk that fits joins the frame and dates it. -/
theorem Assembled.ingest {s t : State} {bs p : List Byte} (h : Assembled s bs t) (now : Word) (hp : p ≠ [])
    (hfits : bs.length + p.length ≤ fbCap) :
    ∃ u, exec (.ingest now p) t = .next u ∧ Assembled s (bs ++ p) u ∧ u.lastRx = now := by
  have ⟨hcap, hfb, _, _⟩ := h.wire
  rw [← h.cur_toNat] at hfits
  have hroom := roomFor_fits hfits
  have hexec : exec (.ingest now p) t = .next ((t.storeBytes now p).emit (.count p.length)) := by
    have hpos : 0 < t.roomFor p.length := hroom.symm ▸ List.length_pos_iff.mpr hp
    have hrun := execIngest_room (now := now) hcap hpos
    rwa [hroom, List.take_length] at hrun
  have hframe : (t.storeBytes now p).frame = bs ++ p := by rw [frame_storeBytes now hfb hfits, h.frame]
  exact ⟨_, hexec, ⟨exec_keeps_wireInv h.wire hexec, hframe, h.tx, h.bank⟩, rfl⟩

/-- An arrival and the POLLs within the silence threshold after it. -/
theorem Assembled.arrival {s t : State} {bs : List Byte} (h : Assembled s bs t) {a : Arrival} (hbytes : a.bytes ≠ [])
    (hpolls : ∀ p ∈ a.polls, (p - a.now).toNat ≤ tSilence) (hfits : bs.length + a.bytes.length ≤ fbCap) :
    ∃ u, runInstrs a.instrs t = .next u ∧ Assembled s (bs ++ a.bytes) u ∧ u.lastRx = a.now := by
  obtain ⟨v, hexec, hv, hnow⟩ := h.ingest a.now hbytes hfits
  rw [← hnow] at hpolls
  obtain ⟨rs, hrun⟩ := runInstrs_quietPolls hpolls
  exact ⟨_, (runInstrs_cons hexec).trans hrun, ⟨hv.wire, hv.frame, hv.tx, hv.bank⟩, hnow⟩

theorem Assembled.arrivals {s t : State} {bs : List Byte} {as : List Arrival} (h : Assembled s bs t)
    (has : ∀ a ∈ as, a.bytes ≠ [] ∧ ∀ p ∈ a.polls, (p - a.now).toNat ≤ tSilence)
    (hfits : bs.length + (as.flatMap Arrival.bytes).length ≤ fbCap) :
    ∃ u, runInstrs (as.flatMap Arrival.instrs) t = .next u ∧ Assembled s (bs ++ as.flatMap Arrival.bytes) u := by
  induction as generalizing t bs with
  | nil => exact ⟨t, rfl, by simpa using h⟩
  | cons a as ih =>
    obtain ⟨⟨hbytes, hpolls⟩, has⟩ := List.forall_mem_cons.mp has
    rw [List.flatMap_cons, List.length_append] at hfits
    obtain ⟨v, hrun, hv, -⟩ := h.arrival hbytes hpolls (by omega)
    obtain ⟨u, hrest, hu⟩ := ih hv has (by rw [List.length_append]; omega)
    exact ⟨u, (runInstrs_append hrun).trans hrest, by rwa [List.flatMap_cons, ← List.append_assoc]⟩

/-- `Process` reads the configuration and the register bank only (R131). -/
theorem process_congr {s t : State} (hbank : t.cfg = s.cfg ∧ t.rb = s.rb) (f : List Byte) :
    process t f = process s f := by
  obtain ⟨hcfg, hrb⟩ := hbank
  have hread : t.memRead = s.memRead := by
    funext a n
    simp only [State.memRead, State.rbByte_congr hcfg hrb]
  simp only [process, readHolding, successResponse, raiseIllegalDataAddress, hcfg, hread]

/-- The first POLL beyond the threshold answers the frame as the state before the arrivals would. -/
theorem Assembled.poll {s t : State} {bs : List Byte} (h : Assembled s bs t) {now : Word} (hbytes : bs ≠ [])
    (hsilence : tSilence < t.elapsed now) :
    ∃ u, exec (.poll now) t = .next u ∧ u.cur = 0 ∧ u.tx = s.tx ++ process s bs := by
  have hcur : t.cur ≠ 0 := by
    intro hzero
    apply hbytes
    rw [← List.length_eq_zero_iff, ← h.cur_toNat, hzero]
    rfl
  refine ⟨_, execPoll_dispatch hcur hsilence h.wire.1, rfl, ?_⟩
  rw [State.emit_tx, State.transmit_tx, State.clearFrame_tx, h.tx, h.frame, process_congr h.bank]

/-- Settles O16: the arrivals before the last, the last one, which dates the frame, and the POLL that dispatches it. -/
theorem chunksAssembleIntoOneFrame : Obligations.ChunksAssembleIntoOneFrame := by
  intro s as last pollTime hs hcur hall hfits hsilence
  obtain ⟨has, hlast⟩ := List.forall_mem_append.mp hall
  obtain ⟨hbytes, hpolls⟩ := hlast last (List.mem_singleton_self last)
  simp only [List.flatMap_append, List.flatMap_singleton, List.length_append] at hfits ⊢
  obtain ⟨v, hrun, hv⟩ := (assembled_nil hs hcur).arrivals has (by rw [List.length_nil]; unfold fbCap; omega)
  rw [List.nil_append] at hv
  obtain ⟨t, hrunLast, ht, hnow⟩ := hv.arrival hbytes hpolls hfits
  rw [← hnow] at hsilence
  obtain ⟨u, hexec, hempty, htx⟩ := ht.poll (List.append_ne_nil_of_right_ne_nil _ hbytes) hsilence
  exact ⟨t, u, (runInstrs_append hrun).trans hrunLast, ht.tx, ht.frame, hexec, hempty, htx⟩

/-! ### What empties the buffers (R108, R231) -/

/-- Only a dispatching POLL lowers the cursor. -/
theorem Effect.cur_lt {s u : State} {i : Instr} {r : Result} (h : Effect s i u r)
    (hlt : u.cur.toNat < s.cur.toNat) : u.cur = 0 ∧ ∃ now, i = .poll now ∧ tSilence < s.elapsed now := by
  cases h with
  | stored now p hcur =>
    have hle := roomFor_le s p.length
    have hlen := take_roomFor_length s p
    rw [storeBytes_cur_toNat now (by omega)] at hlt
    omega
  | dispatched now _ hsilence => exact ⟨rfl, now, rfl, hsilence⟩
  | _ => exact absurd hlt (lt_irrefl _)

/-- Only a clearing DISC lowers the history's length: a full history that takes a sample stays full (R160). -/
theorem Effect.hlen_lt {s u : State} {i : Instr} {r : Result} (h : Effect s i u r)
    (hlt : u.hlen.toNat < s.hlen.toNat) : u.hlen = 0 ∧ i = .disc ∧ s.cfg.clrOnDisc = true := by
  cases h with
  | sampled b _ hlen =>
    have hnew := appendSample_length hlen b
    rw [State.setEst_hlen, State.storeHistory_hlen, BitVec.toNat_ofNat, hnew] at hlt
    unfold histCap at *
    omega
  | cleared hclr => exact ⟨rfl, rfl, hclr⟩
  | _ => exact absurd hlt (lt_irrefl _)

/-- Settles O54, effect by effect; the bounds of R31 on CUR and HLEN stand in the effects that write them. -/
theorem onlyDispatchAndDisconnectEmptyTheBuffers : Obligations.OnlyDispatchAndDisconnectEmptyTheBuffers := by
  intro i s t _ h
  obtain ⟨u, r, he, rfl⟩ := exec_next h
  exact ⟨he.cur_lt, he.hlen_lt⟩

end Sys2Proof.Machine

/-! The proofs of the family 42_modbus_processor.md. The checks of `Process` are gathered into one predicate (`Accepts`,
`process_eq_ite`, R121), and the answer to an accepted frame is one closed body (`readHolding_eq_closeFrame`, R127 to
R129); the outcome table, the length of a response and what it depends on follow. -/

namespace Sys2Proof.Machine

/-! ### The checks of `Process` (R121) -/

/-- The frame passes every check of `Process`: length (R122), address (R123), CRC (R124) and function code (R130). -/
abbrev Accepts (s : State) (f : List Byte) : Prop :=
  minFrame ≤ f.length ∧ f.getD 0 0 = s.cfg.slaveAddr ∧ crcMatches f = true ∧ f.getD 1 0 = fcRead

theorem process_eq_ite (s : State) (f : List Byte) : process s f =
    if Accepts s f then readHolding s (be16 (f.getD 2 0) (f.getD 3 0)) (be16 (f.getD 4 0) (f.getD 5 0)) else [] := by
  simp only [process, ite_and, ← Nat.not_le, ne_eq, Bool.not_eq_true', Bool.eq_false_iff, ite_not]

theorem process_accepted {s : State} {f : List Byte} (h : Accepts s f) :
    process s f = readHolding s (be16 (f.getD 2 0) (f.getD 3 0)) (be16 (f.getD 4 0) (f.getD 5 0)) :=
  (process_eq_ite s f).trans (if_pos h)

theorem process_rejected {s : State} {f : List Byte} (h : ¬ Accepts s f) : process s f = [] :=
  (process_eq_ite s f).trans (if_neg h)

/-! ### The two responses (R127 to R129) -/

section Responses
variable (s : State) (start count : Half)

/-- Either response is a body closed with its CRC; which body is decided by the exact end offset (R127). -/
theorem readHolding_eq_closeFrame : readHolding s start count = closeFrame
    (if 20 < 2 * start.toNat + 2 * count.toNat then [s.cfg.slaveAddr, 0x83, 0x02]
      else [s.cfg.slaveAddr, 0x03, BitVec.ofNat 8 (2 * count.toNat)] ++
        (List.range (2 * count.toNat)).map fun i => s.rbByte (2 * start.toNat + i)) :=
  (apply_ite closeFrame _ _ _).symm

theorem raiseIllegalDataAddress_length (fc : Byte) : (raiseIllegalDataAddress s fc).length = 5 :=
  closeFrame_length _

theorem successResponse_length : (successResponse s start count).length = 5 + countOff count := by
  rw [successResponse, closeFrame_length, List.length_append, State.memRead_length]
  simp only [List.length_cons, List.length_nil]
  omega

/-- A success response holds at most the 20 bytes of the bank besides its 5 fixed bytes (R62, R63). -/
theorem readHolding_length : 5 ≤ (readHolding s start count).length ∧ (readHolding s start count).length ≤ 25 := by
  unfold readHolding
  split
  · rw [raiseIllegalDataAddress_length]
    decide
  · next hinside =>
    rw [successResponse_length]
    unfold endOff rbSize at hinside
    omega

end Responses

theorem execMbReadHoldingRegistersResponse_outside {s : State} {start count : Half} (h : rbSize < endOff start count) :
    execMbReadHoldingRegistersResponse start count s = .refused .bankRangeUndefined := if_pos h

section Bank
variable {s t : State}

/-- A slice inside the bank is the same in two states whose bank bytes are the same. -/
theorem State.memRead_congr_bank (hbank : ∀ i < 20, s.rbByte i = t.rbByte i) {addr n : Nat} (h : addr + n ≤ rbSize) :
    s.memRead addr n = t.memRead addr n := by
  apply List.map_congr_left
  intro i hi
  have hlt := List.mem_range.mp hi
  exact hbank _ (by unfold rbSize at h; omega)

/-- Only a range inside the bank is read, so the 20 bank bytes and SLAVE_ADDR decide the answer. -/
theorem readHolding_congr (haddr : s.cfg.slaveAddr = t.cfg.slaveAddr) (hbank : ∀ i < 20, s.rbByte i = t.rbByte i)
    (start count : Half) : readHolding s start count = readHolding t start count := by
  unfold readHolding
  split
  · rw [raiseIllegalDataAddress, raiseIllegalDataAddress, haddr]
  · next hinside =>
    rw [successResponse, successResponse, haddr, State.memRead_congr_bank hbank (Nat.not_lt.mp hinside)]

end Bank

/-! ### The statements -/

/-- Settles O17: a frame that fails a check is rejected, and an accepted one is answered with the closed body of
`ReadHolding` on its big-endian fields. -/
theorem procAnswersByTheOutcomeTable : Obligations.ProcAnswersByTheOutcomeTable := by
  intro s f hfits
  refine ⟨process s f, execProc_fits hfits, ?short, ?foreign, ?badCrc, ?function, ?served⟩
  case short => exact fun hshort => process_rejected fun ⟨hlen, _⟩ => absurd hshort (Nat.not_lt.mpr hlen)
  case foreign => exact fun hforeign => process_rejected fun ⟨_, haddr, _⟩ => hforeign haddr
  case badCrc => exact fun hbad => process_badCrc s (beq_eq_false_iff_ne.mpr hbad)
  case function => exact fun hother => process_rejected fun ⟨_, _, _, hfc⟩ => hother hfc
  case served =>
    intro hlen haddr hcrc hfc
    rw [process_accepted ⟨hlen, haddr, beq_iff_eq.mpr hcrc, hfc⟩, readHolding_eq_closeFrame, be16_toNat, be16_toNat]
    rfl

/-- Settles O19: a rejected frame gets none, an accepted one an answer of `ReadHolding`. -/
theorem responsesAreFiveToTwentyFiveBytes : Obligations.ResponsesAreFiveToTwentyFiveBytes := by
  intro s f
  by_cases h : Accepts s f
  · rw [process_accepted h]
    exact .inr (readHolding_length s _ _)
  · exact .inl (process_rejected h)

/-- Settles O20: the checks read the frame and SLAVE_ADDR alone, the answer SLAVE_ADDR and the bank. -/
theorem responseDependsOnFrameAddressAndBank : Obligations.ResponseDependsOnFrameAddressAndBank := by
  intro s t f haddr hbank
  simp only [process_eq_ite, Accepts, haddr, readHolding_congr haddr hbank]

/-- Settles O21, from the equation of the wire instruction on a request that fits; `readHolding` is the inner choice. -/
theorem readHoldingRegistersServesOrExcepts : Obligations.ReadHoldingRegistersServesOrExcepts :=
  fun _ _ _ _ _ hfits => execMbReadHoldingRegisters_fits hfits

/-- Settles O23, from the equations of the response instruction inside and outside the bank. -/
theorem successResponseHoldsTheSlice : Obligations.SuccessResponseHoldsTheSlice :=
  fun _ _ _ => ⟨execMbReadHoldingRegistersResponse_inside, execMbReadHoldingRegistersResponse_outside⟩

/-- Settles O24: the meaning is the emission of this one frame, evaluated for the default SLAVE_ADDR. -/
theorem exceptionResponseIsBuiltAndNothingRecorded : Obligations.ExceptionResponseIsBuiltAndNothingRecorded := by
  refine fun s => ⟨rfl, fun haddr => ?_⟩
  rw [raiseIllegalDataAddress, haddr]
  decide

end Sys2Proof.Machine

/-! The proofs of the family 43_rssi_distance.md. The bit search finds the least solution of R154
(`isLeast_roundedDistance`), and R154's inequality says that the real distance of R152 lies below `d + 1/2`
(`roundsBelow_iff`), which it never equals (`exactDistance_ne_half`); nearness and monotonicity are read off these.
Smoothing is fixed by one bound, `smooth_near`. -/

namespace Sys2Proof.Machine

/-! ### The search of R154 -/

/-- A valid reading has an exponent, and its raw distance is the rounded one (R153). -/
theorem rawDistance_valid {c : Config} {sum : Int} {cnt : Nat} {rssi : Int} (hnum : 0 < c.nNum) (hcnt : 0 < cnt)
    (hrssi : rssi < 0) : rawDistance c sum cnt rssi = roundedDistance (pathP c sum cnt rssi) (pathQ c cnt) := by
  simp [rawDistance, validReading, hrssi, pathQ, hnum.ne', hcnt.ne']

theorem pathQ_pos {c : Config} {cnt : Nat} (hnum : 0 < c.nNum) (hcnt : 0 < cnt) : 0 < pathQ c cnt := by
  unfold pathQ
  positivity

/-- The last candidate of the bit search is a solution of R154's inequality, so the search starts wide enough. -/
theorem roundsBelow_lastCandidate (p : Int) {q : Nat} (hq : 0 < q) :
    roundsBelow p q (2 ^ distanceBits p q - 1) = true := by
  have hwide : 200 * 10 ^ (p.toNat / q + 1) < 2 ^ distanceBits p q := Nat.lt_log2_self
  have hexp : p.toNat < (p.toNat / q + 1) * q := Nat.lt_mul_of_div_lt (Nat.lt_succ_self _) hq
  rw [roundsBelow, decide_eq_true_eq]
  calc 200 ^ q * 10 ^ p.toNat
      < 200 ^ q * 10 ^ ((p.toNat / q + 1) * q) := by gcongr; norm_num
    _ = (200 * 10 ^ (p.toNat / q + 1)) ^ q := by rw [mul_pow, ← pow_mul]
    _ ≤ (2 * (2 ^ distanceBits p q - 1) + 1) ^ q := Nat.pow_le_pow_left (by omega) q
    _ ≤ (2 * (2 ^ distanceBits p q - 1) + 1) ^ q * 10 ^ (-p).toNat := Nat.le_mul_of_pos_right _ (by positivity)

/-- The rounded distance is the least solution of R154's inequality. -/
theorem isLeast_roundedDistance (p : Int) {q : Nat} (hq : 0 < q) :
    IsLeast {d | roundsBelow p q d = true} (roundedDistance p q) := by
  have hlast : roundsBelow p q (0 + 2 ^ distanceBits p q - 1) = true := by
    rw [Nat.zero_add]
    exact roundsBelow_lastCandidate p hq
  exact ⟨(leastFrom_spec (roundsBelow_mono p q) _ 0 hlast).1, fun _ => roundedDistance_le⟩

/-- Settles O26: a valid reading's raw distance is the result of the search, `max` being written for `toNat`'s cut. -/
theorem rawDistanceIsLeastOfTheInequality : Obligations.RawDistanceIsLeastOfTheInequality := by
  intro c sum cnt rssi hnum hcnt hrssi p q
  have hpos (z : Int) : (max z 0).toNat = z.toNat := by omega
  refine ⟨_, rawDistance_valid hnum hcnt hrssi, ?_⟩
  have hleast := isLeast_roundedDistance (pathP c sum cnt rssi) (pathQ_pos hnum hcnt)
  simp only [roundsBelow, decide_eq_true_eq] at hleast
  simp only [hpos]
  exact hleast

/-! ### The real distance of R152 -/

/-- `100 * 10^(P/Q)`, the exact distance that R153 rounds. -/
noncomputable def exactDistance (p : Int) (q : Nat) : ℝ := 100 * (10 : ℝ) ^ ((p : ℝ) / (q : ℝ))

theorem exactDistance_pos (p : Int) (q : Nat) : 0 < exactDistance p q := by
  unfold exactDistance
  positivity

/-- Both sides of R154's inequality carry the factor `10^Pm`: its left side is that of the doubled distance. -/
theorem two_mul_exactDistance_pow (p : Int) {q : Nat} (hq : 0 < q) :
    (2 * exactDistance p q) ^ q * 10 ^ (-p).toNat = ((200 ^ q * 10 ^ p.toNat : Nat) : ℝ) := by
  have hexp : (p : ℝ) + ((-p).toNat : ℝ) = (p.toNat : ℝ) := by exact_mod_cast (by omega : p + (-p).toNat = p.toNat)
  have hpow : ((10 : ℝ) ^ ((p : ℝ) / q)) ^ q * 10 ^ (-p).toNat = 10 ^ p.toNat := by
    rw [← Real.rpow_mul_natCast (by norm_num), div_mul_cancel₀ _ (by positivity), ← Real.rpow_natCast,
      ← Real.rpow_add (by norm_num), hexp, Real.rpow_natCast]
  rw [exactDistance, ← mul_assoc, mul_pow, mul_assoc, hpow]
  norm_num

/-- R154 rests on R153: its inequality says that the exact distance is below `d + 1/2`. -/
theorem roundsBelow_iff (p : Int) {q : Nat} (hq : 0 < q) (d : Nat) :
    roundsBelow p q d = true ↔ exactDistance p q < d + 1 / 2 := by
  have hpos := exactDistance_pos p q
  calc roundsBelow p q d = true
      ↔ (2 * exactDistance p q) ^ q * 10 ^ (-p).toNat < (2 * d + 1 : ℝ) ^ q * 10 ^ (-p).toNat := by
        rw [roundsBelow, decide_eq_true_eq, two_mul_exactDistance_pow p hq]
        exact_mod_cast Iff.rfl
    _ ↔ (2 * exactDistance p q) ^ q < (2 * d + 1 : ℝ) ^ q := mul_lt_mul_iff_left₀ (by positivity)
    _ ↔ 2 * exactDistance p q < 2 * d + 1 := pow_lt_pow_iff_left₀ (by positivity) (by positivity) hq.ne'
    _ ↔ exactDistance p q < d + 1 / 2 := by constructor <;> intro h <;> linarith

/-- Below `10^Pm = 1000^q` the two sides of R154 differ in how often 2 divides them. -/
theorem sides_ne_of_lt {p : Int} {q : Nat} (hsmall : (-p).toNat < 3 * q) (d : Nat) :
    200 ^ q * 10 ^ p.toNat ≠ (2 * d + 1) ^ q * 10 ^ (-p).toNat := by
  intro h
  have hleft : 2 ^ ((-p).toNat + 1) ∣ 200 ^ q * 10 ^ p.toNat :=
    calc 2 ^ ((-p).toNat + 1) ∣ 2 ^ (3 * q) := pow_dvd_pow 2 hsmall
      _ = 8 ^ q := by rw [pow_mul]; norm_num
      _ ∣ 200 ^ q := pow_dvd_pow_of_dvd (by norm_num) q
      _ ∣ 200 ^ q * 10 ^ p.toNat := dvd_mul_right _ _
  have hright : (2 * d + 1) ^ q * 10 ^ (-p).toNat = 2 ^ (-p).toNat * ((2 * d + 1) ^ q * 5 ^ (-p).toNat) := by
    rw [show (10 : Nat) = 2 * 5 from rfl, mul_pow]
    ring
  have hodd : Odd ((2 * d + 1) ^ q * 5 ^ (-p).toNat) := (odd_two_mul_add_one d).pow.mul (Odd.pow (by decide))
  rw [h, hright, pow_succ] at hleft
  exact hodd.not_two_dvd_nat (Nat.dvd_of_mul_dvd_mul_left (by positivity) hleft)

/-- From `10^Pm = 1000^q` up the exact distance is at most a tenth of a centimetre, so the right side is larger. -/
theorem sides_lt_of_le {p : Int} {q : Nat} (hq : 0 < q) (hlarge : 3 * q ≤ (-p).toNat) (d : Nat) :
    200 ^ q * 10 ^ p.toNat < (2 * d + 1) ^ q * 10 ^ (-p).toNat := by
  have hp : p.toNat = 0 := by omega
  calc 200 ^ q * 10 ^ p.toNat = 200 ^ q := by rw [hp, pow_zero, mul_one]
    _ < 1000 ^ q := Nat.pow_lt_pow_left (by norm_num) hq.ne'
    _ = 10 ^ (3 * q) := by rw [pow_mul]; norm_num
    _ ≤ 10 ^ (-p).toNat := Nat.pow_le_pow_right (by norm_num) hlarge
    _ ≤ (2 * d + 1) ^ q * 10 ^ (-p).toNat := Nat.le_mul_of_pos_left _ (by positivity)

theorem sides_ne (p : Int) {q : Nat} (hq : 0 < q) (d : Nat) :
    200 ^ q * 10 ^ p.toNat ≠ (2 * d + 1) ^ q * 10 ^ (-p).toNat := by
  by_cases hsmall : (-p).toNat < 3 * q
  · exact sides_ne_of_lt hsmall d
  · exact (sides_lt_of_le hq (not_lt.mp hsmall) d).ne

/-- R153's rounding never meets a tie. -/
theorem exactDistance_ne_half (p : Int) {q : Nat} (hq : 0 < q) (d : Nat) : exactDistance p q ≠ d + 1 / 2 := by
  intro h
  have hpow := two_mul_exactDistance_pow p hq
  rw [h, show (2 * ((d : ℝ) + 1 / 2)) = 2 * d + 1 by ring] at hpow
  exact sides_ne p hq d (by exact_mod_cast hpow.symm)

/-- The rounded distance is the integer nearest to the exact one. -/
theorem roundedDistance_near (p : Int) {q : Nat} (hq : 0 < q) :
    |(roundedDistance p q : ℝ) - exactDistance p q| < 1 / 2 := by
  obtain ⟨hsol, hleast⟩ := isLeast_roundedDistance p hq
  have hhi : exactDistance p q < roundedDistance p q + 1 / 2 := (roundsBelow_iff p hq _).mp hsol
  have hlo : (roundedDistance p q : ℝ) - 1 / 2 < exactDistance p q := by
    cases hd : roundedDistance p q with
    | zero =>
      have hpos := exactDistance_pos p q
      push_cast
      linarith
    | succ d =>
      have hfail : ¬ roundsBelow p q d = true := fun hd' => by
        have hle : roundedDistance p q ≤ d := hleast hd'
        omega
      rw [roundsBelow_iff p hq, not_lt] at hfail
      have hstrict := lt_of_le_of_ne hfail (exactDistance_ne_half p hq d).symm
      push_cast
      linarith
  rw [abs_lt]
  constructor <;> linarith

/-- Settles O25, from the search's nearness to the exact distance. -/
theorem rawDistanceIsTheNearestInteger : Obligations.RawDistanceIsTheNearestInteger := by
  refine fun c sum cnt rssi hnum hcnt => ⟨fun hinvalid => ?_, fun hvalid => ?_⟩
  · simp [rawDistance, validReading, hinvalid, sentinel]
  · rw [rawDistance_valid hnum hcnt hvalid, Int.cast_natCast]
    exact roundedDistance_near _ (pathQ_pos hnum hcnt)

/-! ### Monotonicity, range and table (R159, R162, R161) -/

/-- A smaller exponent gives a smaller or equal rounded distance. -/
theorem roundedDistance_mono {p p' : Int} {q q' : Nat} (hq : 0 < q) (hq' : 0 < q') (h : p * q' ≤ p' * q) :
    roundedDistance p q ≤ roundedDistance p' q' := by
  have hexp : (p : ℝ) / q ≤ (p' : ℝ) / q' := by
    rw [div_le_div_iff₀ (by positivity) (by positivity)]
    exact_mod_cast h
  have hdist : exactDistance p q ≤ exactDistance p' q' := by
    unfold exactDistance
    gcongr
    norm_num
  have hsol := (roundsBelow_iff p' hq' _).mp (isLeast_roundedDistance p' hq').1
  exact roundedDistance_le ((roundsBelow_iff p hq _).mpr (hdist.trans_lt hsol))

/-- Settles O28: the exponents `P/Q` are ordered as the references and against the readings. -/
theorem rawDistanceIsMonotone : Obligations.RawDistanceIsMonotone := by
  intro c sum1 sum2 cnt1 cnt2 r1 r2 hnum hcnt1 hcnt2 hr1 hr2 hr hsum
  rw [rawDistance_valid hnum hcnt2 hr2, rawDistance_valid hnum hcnt1 hr1, Nat.cast_le]
  refine roundedDistance_mono (pathQ_pos hnum hcnt2) (pathQ_pos hnum hcnt1) ?_
  have hgap : (sum2 - r2 * cnt2) * cnt1 ≤ (sum1 - r1 * cnt1) * cnt2 := by
    have hreadings : r1 * (cnt1 * cnt2) ≤ r2 * (cnt1 * cnt2) := by gcongr
    linarith
  calc pathP c sum2 cnt2 r2 * (pathQ c cnt1 : Nat)
      = (sum2 - r2 * cnt2) * cnt1 * (c.nDen * (10 * c.nNum)) := by unfold pathP pathQ; push_cast; ring
    _ ≤ (sum1 - r1 * cnt1) * cnt2 * (c.nDen * (10 * c.nNum)) := by gcongr
    _ = pathP c sum1 cnt1 r1 * (pathQ c cnt2 : Nat) := by unfold pathP pathQ; push_cast; ring

/-- Settles O29, the bounds that the invariant of R31 already rests on. -/
theorem rawDistanceFitsItsRange : Obligations.RawDistanceFitsItsRange :=
  fun _ _ href hexp hvalid => raw_bounds href hexp hvalid

/-- R152 for the reset reference and N_EXP = 5/2: `P = 2 * (-59 - rssi)` and `Q = 50`. -/
theorem rawDistance_resetReference {c : Config} (hexp : c.DefaultExponent) {rssi : Int} (hrssi : rssi < 0) :
    rawDistance c (-59) 1 rssi = roundedDistance ((-59 - rssi) * 2) 50 := by
  obtain ⟨hnum, hden⟩ := hexp
  rw [rawDistance_valid (by omega) Nat.one_pos hrssi, pathP, pathQ, hnum, hden]
  simp

/-- Settles O27: each entry is one bit search, evaluated by the kernel. -/
theorem rawDistanceTableForResetReference : Obligations.RawDistanceTableForResetReference := by
  intro c hexp
  have hvalid : ∀ i ∈ List.range 128, rawDistance c (-59) 1 ((i : Int) - 128) =
      roundedDistance ((-59 - ((i : Int) - 128)) * 2) 50 := fun i hi => by
    rw [List.mem_range] at hi
    exact rawDistance_resetReference hexp (by omega)
  rw [List.map_congr_left hvalid]
  decide +kernel

/-- Settles O36: DIST emits the distance word, which holds every distance that fits. -/
theorem distReturnsTheRawDistance : Obligations.DistReturnsTheRawDistance :=
  fun _ _ => ⟨_, rfl, distanceWord_toInt⟩

/-! ### The median (R156) -/

/-- The middle index of the sort exists, and the median is what stands there. -/
theorem sortAscending_getElem?_middle {h : List Int} (hne : h ≠ []) :
    (sortAscending h)[h.length / 2]? = some (median h) := by
  have hpos := List.length_pos_iff.mpr hne
  have hlt : h.length / 2 < (sortAscending h).length := by
    rw [sortAscending_length]
    omega
  rw [median, List.getD_eq_getElem _ _ hlt, List.getElem?_eq_getElem hlt]

/-- Settles O30 with the model's own sort. -/
theorem medianIsTheMiddleOfTheSort : Obligations.MedianIsTheMiddleOfTheSort :=
  fun h hne => ⟨sortAscending h, sortAscending_perm h, sortAscending_pairwise h, sortAscending_getElem?_middle hne⟩

/-! ### Smoothing (R157 to R159) -/

/-- Five times the smoothed value is within 2 of `raw + 4 * prev`, which fixes it. -/
theorem smooth_near (prev raw : Int) :
    raw + 4 * prev - 2 ≤ 5 * smooth prev raw ∧ 5 * smooth prev raw ≤ raw + 4 * prev + 2 := by
  unfold smooth
  omega

/-- Settles O31: a distance of at most 2 from a multiple of 5 is less than half of 5. -/
theorem smoothingRoundsToNearest : Obligations.SmoothingRoundsToNearest := by
  intro prev raw
  have hnear := smooth_near prev raw
  have habs : |5 * smooth prev raw - (raw + 4 * prev)| ≤ 2 := abs_le.mpr (by omega)
  omega

theorem smooth_eq_self_iff (e raw : Int) : smooth e raw = e ↔ |raw - e| ≤ 2 := by
  have hnear := smooth_near e raw
  rw [abs_le]
  omega

theorem min_le_smooth (e raw : Int) : min e raw ≤ smooth e raw := by
  have hnear := smooth_near e raw
  omega

theorem smooth_le_max (e raw : Int) : smooth e raw ≤ max e raw := by
  have hnear := smooth_near e raw
  omega

/-- Settles O32 part by part. -/
theorem smoothingFixedPointsAndBounds : Obligations.SmoothingFixedPointsAndBounds :=
  fun e raw => ⟨smooth_eq_self_iff e raw, min_le_smooth e raw, smooth_le_max e raw⟩

/-- A gap above 2 shrinks by at least one centimetre, and one of at most 2 stays so. -/
theorem abs_smooth_sub_le {e raw k : Int} (hk : 2 ≤ k) (h : |e - raw| ≤ k + 1) : |smooth e raw - raw| ≤ k := by
  have hnear := smooth_near e raw
  rw [abs_le] at *
  omega

theorem abs_iterate_smooth_sub_le (raw : Int) (n : Nat) {e : Int} (h : |e - raw| ≤ n + 2) :
    |(fun x => smooth x raw)^[n] e - raw| ≤ 2 := by
  induction n generalizing e with
  | zero => simpa using h
  | succ n ih =>
    rw [Function.iterate_succ_apply]
    push_cast at h
    exact ih (abs_smooth_sub_le (by omega) (by omega))

/-- Settles O33, with the two centimetres that need no step given away. -/
theorem smoothingConvergesWithinTwo : Obligations.SmoothingConvergesWithinTwo :=
  fun raw _ n h => abs_iterate_smooth_sub_le raw n (by omega)

/-! ### SAMPLE (R160) -/

/-- Step 1 of R160 in one form for full and for partly filled histories: the last five of the old samples and the new
one. -/
theorem appendSample_eq_drop {s : State} (h : s.hlen.toNat ≤ histCap) (b : Byte) :
    s.appendSample b = (s.samples ++ [b]).drop (s.samples.length + 1 - 5) := by
  have hlen : s.samples.length = s.hlen.toNat := by
    unfold histCap at h
    simp [State.samples, h]
  unfold State.appendSample histCap at *
  split
  · next hfull =>
    have hall : s.samples = s.hist.toList := by
      rw [State.samples, hfull]
      exact List.take_of_length_le (by simp)
    rw [hall]
    simp
  · next hroom => rw [hlen, show s.hlen.toNat + 1 - 5 = 0 by omega, List.drop_zero]

/-- A history of at most five samples keeps its length in HLEN's three bits. -/
theorem storeHistory_hlen_toNat (s : State) {h : List Byte} (hlen : h.length ≤ histCap) :
    (s.storeHistory h).hlen.toNat = h.length :=
  Nat.mod_eq_of_lt (by unfold histCap at hlen; omega)

/-- Cell by cell: the new samples from the bottom, the old cells above them. -/
theorem storeHistory_hist_getElem (s : State) (h : List Byte) (i : Fin 5) :
    (s.storeHistory h).hist[i] = h.getD i s.hist[i] := by
  fin_cases i <;> rfl

theorem nextEstimate_eq_ite (s : State) (raw : Int) :
    s.nextEstimate raw = if s.est.toInt < 0 then raw else smooth s.est.toInt raw := by
  unfold State.nextEstimate State.estValid
  by_cases hneg : s.est.toInt < 0
  · simp [hneg]
  · simp [hneg, not_lt.mp hneg]

/-- Settles O34: the equations of SAMPLE in the two modes, read field by field. -/
theorem sampleUpdatesHistoryAndEstimate : Obligations.SampleUpdatesHistoryAndEstimate := by
  refine fun b s => ⟨execSample_cal, ?_⟩
  intro hmode hlen old h raw est
  have happend : s.appendSample b = h := appendSample_eq_drop hlen b
  have hfits : h.length ≤ histCap := by
    rw [← happend, appendSample_length hlen]
    exact Nat.min_le_right _ _
  have hest : s.sampledEst b = distanceWord est := by
    rw [State.sampledEst, nextEstimate_eq_ite, happend]
    rfl
  refine ⟨_, execSample_normal hmode hlen, ?_, ?_, ?_, rfl⟩
  · rw [happend]
    exact storeHistory_hlen_toNat s hfits
  · rw [happend]
    exact storeHistory_hist_getElem s h
  · rw [hest]
    exact distanceWord_toInt

/-- Neither adopting nor smoothing towards a non-negative raw distance gives a negative estimate. -/
theorem nextEstimate_nonneg (s : State) {raw : Int} (hraw : 0 ≤ raw) : 0 ≤ s.nextEstimate raw := by
  have hmin := min_le_smooth s.est.toInt raw
  rw [nextEstimate_eq_ite]
  split <;> omega

/-- Settles O37: the median is a reading of the history, so its raw distance has R153's range. -/
theorem estimateStaysValidWhileMediansAreNegative : Obligations.EstimateStaysValidWhileMediansAreNegative := by
  rintro b s t ⟨-, -, hlen, href, -, hest⟩ hexp hmode hmedian hexec
  obtain ⟨c, -, hc⟩ := median_eq_rssiOf s b
  have hneg : rssiOf c < 0 := hc.trans_lt hmedian
  have hraw := raw_bounds href hexp hneg
  have hbound := nextEstimate_bound (hest hexp) (.inr hraw)
  have hnonneg := nextEstimate_nonneg s hraw.1
  have ht : t.est = s.sampledEst b := by
    obtain rfl := Host.Outcome.next.inj ((execSample_normal hmode hlen).symm.trans hexec)
    rfl
  unfold EstimateBound sentinel at hbound
  rw [ht, State.sampledEst, ← hc, distanceWord_toInt (by omega) (by omega)]
  exact hnonneg

end Sys2Proof.Machine

/-! The proofs of the family 44_calibration_and_link.md: the equations of CALSTART, CALPOLL, CONN and DISC, read field
by field (R181 to R183, R187, R188); a calibration ends, because each poll that leaves it running raises CAL_TRIES (R185);
and what does not look at the mode does the same in either mode (R184). -/

namespace Sys2Proof.Machine

/-! ### CALSTART, CONN and DISC -/

/-- Settles O38: the equations of CALSTART in the two modes. -/
theorem calstartEntersCalibrationOnce : Obligations.CalstartEntersCalibrationOnce :=
  fun _ => ⟨execCalstart_normal, execCalstart_cal⟩

/-- Settles O41: CONN's meaning, and the equations of DISC for the two values of CLR_ON_DISC. -/
theorem connAndDiscSetTheActiveFlag : Obligations.ConnAndDiscSetTheActiveFlag :=
  fun _ => ⟨rfl, execDisc_keeps, fun hclr => ⟨_, execDisc_clears hclr, sentinelWord_toInt, rfl⟩⟩

/-! ### What a CALPOLL counts and where it ends (R182, R183) -/

theorem pollSum_eq_ite (s : State) (x : Int) :
    s.pollSum x = if x < 0 then s.calSum.toInt + x else s.calSum.toInt := by
  simp only [State.pollSum, validReading, decide_eq_true_eq]

theorem pollCnt_eq_ite (s : State) (x : Int) :
    s.pollCnt x = if x < 0 then s.calCnt.toNat + 1 else s.calCnt.toNat := by
  simp only [State.pollCnt, validReading, decide_eq_true_eq]

/-- Settles O39: the equations of CALPOLL in NORMAL mode and for the three ways a poll in CAL mode can go; under the
counters' invariant each stored number reads back exactly. -/
theorem calpollCountsAndEnds : Obligations.CalpollCountsAndEnds := by
  refine fun b s => ⟨execCalpoll_normal, ?_⟩
  intro hs hmode tries sum cnt
  have hsum : s.pollSum (rssiOf b) = sum := pollSum_eq_ite s _
  have hcnt : s.pollCnt (rssiOf b) = cnt := pollCnt_eq_ite s _
  obtain ⟨htriesReg, hcntReg, hsumReg⟩ := polled_counters hs hmode b
  have hrefSum := toInt_ofInt_pollSum hs hmode b
  have hrefCnt := toNat_ofNat_pollCnt hs hmode (rssiOf b)
  rw [hsum] at hsumReg hrefSum
  rw [hcnt] at hcntReg hrefCnt
  by_cases hend : cnt = 10 ∨ tries = 20
  · rcases Nat.eq_zero_or_pos cnt with hzero | hpos
    · have htries : tries = 20 := hend.resolve_left (by omega)
      exact ⟨_, execCalpoll_failed hmode htries (hcnt.trans hzero), htriesReg, hsumReg, hcntReg,
        fun _ hpos => by omega, fun _ _ => ⟨rfl, rfl, rfl, rfl, rfl⟩, fun hrunning => absurd hend hrunning, rfl⟩
    · exact ⟨_, execCalpoll_done hmode (hcnt ▸ hend) (hcnt ▸ hpos), htriesReg, hsumReg, hcntReg,
        fun _ _ => ⟨rfl, hsum ▸ hrefSum, hcnt ▸ hrefCnt, rfl, rfl⟩, fun _ hzero => by omega,
        fun hrunning => absurd hend hrunning, rfl⟩
  · obtain ⟨hten, htwenty⟩ := not_or.mp hend
    exact ⟨_, execCalpoll_busy hmode (hcnt ▸ hten) htwenty, htriesReg, hsumReg, hcntReg,
      fun hended => absurd hended hend, fun hended => absurd hended hend,
      fun _ => ⟨hmode, rfl, rfl, rfl, rfl⟩, rfl⟩

/-! ### A calibration ends (R185) -/

theorem exec_keeps_calibrationInv {i : Instr} {s t : State} (hs : s.CalibrationInv) (h : exec i s = .next t) :
    t.CalibrationInv := by
  obtain ⟨u, r, he, rfl⟩ := exec_next h
  exact he.calibrationInv hs

theorem exec_calstart_completes (s : State) : ∃ t, exec .calstart s = .next t := by
  cases hmode : s.mode with
  | normal => exact ⟨_, execCalstart_normal hmode⟩
  | cal => exact ⟨_, execCalstart_cal hmode⟩

/-- A CALPOLL completes, and if the block calibrates after it, it did before and one more poll is counted. -/
theorem exec_calpoll_counts {s : State} (hs : s.CalibrationInv) (b : Byte) :
    ∃ t, exec (.calpoll b) s = .next t ∧
      (t.mode = .cal → s.mode = .cal ∧ t.calTries.toNat = s.calTries.toNat + 1) := by
  obtain ⟨hignored, hcounts⟩ := calpollCountsAndEnds b s
  cases hmode : s.mode with
  | normal => exact ⟨_, hignored hmode, fun hcal => nomatch hmode.symm.trans hcal⟩
  | cal =>
    obtain ⟨t, hexec, htries, -⟩ := hcounts hs hmode
    exact ⟨t, hexec, fun _ => ⟨rfl, htries⟩⟩

/-- CALPOLLs that reach CAL_MAX together with those already counted leave the block in NORMAL mode. -/
theorem runInstrs_calpolls {s : State} (hs : s.CalibrationInv) {rs : List Byte}
    (henough : s.mode = .cal → calMax ≤ s.calTries.toNat + rs.length) :
    ∃ t, runInstrs (rs.map .calpoll) s = .next t ∧ t.mode = .normal := by
  induction rs generalizing s with
  | nil =>
    obtain ⟨-, -, -, -, -, hrunning⟩ := hs
    cases hmode : s.mode with
    | normal => exact ⟨s, rfl, hmode⟩
    | cal => exact absurd (henough hmode) (Nat.not_le.mpr (hrunning hmode).2)
  | cons b rs ih =>
    obtain ⟨u, hexec, hcount⟩ := exec_calpoll_counts hs b
    obtain ⟨t, hrun, hnormal⟩ := ih (exec_keeps_calibrationInv hs hexec) fun hcal => by
      obtain ⟨hmode, htries⟩ := hcount hcal
      have hold := henough hmode
      rw [List.length_cons] at hold
      omega
    exact ⟨t, (runInstrs_cons hexec).trans hrun, hnormal⟩

/-- Settles O40: CALSTART keeps the counters' invariant, and twenty polls reach CAL_MAX from any count. -/
theorem calibrationEndsWithinTwentyPolls : Obligations.CalibrationEndsWithinTwentyPolls := by
  intro s rs hs hlen
  obtain ⟨u, hstart⟩ := exec_calstart_completes s
  have henough : calMax ≤ u.calTries.toNat + rs.length := hlen ▸ Nat.le_add_left _ _
  obtain ⟨t, hrun, hnormal⟩ := runInstrs_calpolls (exec_keeps_calibrationInv hs hstart) fun _ => henough
  exact ⟨t, (runInstrs_cons hstart).trans hrun, hnormal⟩

/-! ### The mode and the other operations (R184) -/

/-- Of the registers only STATUS shows the mode. -/
theorem register_withMode (s : State) (m : Mode) {a : Nat} (h : a ≠ 0) :
    ({ s with mode := m } : State).register a = s.register a := by
  unfold State.register
  split
  · exact absurd rfl h
  all_goals rfl

/-- A wire-side operation runs alike over any wireless side, so over one that differs in the mode, and writes none of
it. -/
theorem exec_wire_withMode {i : Instr} {s t : State} (m : Mode) (hi : wireSide i = true) (h : exec i s = .next t) :
    exec i { s with mode := m } = .next { t with mode := m } := by
  have hsame := exec_sameWireless hi h
  have hinbox := exec_inbox h
  obtain ⟨u, r, rfl, hres, hexec⟩ := exec_withWirelessOf { s with mode := m } hi h
  have hrest : (u.withWirelessOf { s with mode := m }).emit r = { u.emit r with mode := m } := by
    cases hsame
    simp_all [State.withWirelessOf, State.emit]
  exact hexec.trans (congrArg Host.Outcome.next hrest)

/-- Settles O53: the wire side as a whole, then DIST, CONN, DISC and RD, which do not read the mode. -/
theorem modeLeavesTheOtherOperationsAlone : Obligations.ModeLeavesTheOtherOperationsAlone := by
  intro i s t m hsample hcalstart hcalpoll hstatus h
  cases i with
  | sample b => exact absurd rfl (hsample b)
  | calstart => exact absurd rfl hcalstart
  | calpoll b => exact absurd rfl (hcalpoll b)
  | dist b =>
    obtain rfl := execDist_next h
    rfl
  | conn =>
    obtain rfl := execConn_next h
    rfl
  | disc =>
    obtain ⟨hclr, rfl⟩ | ⟨hclr, rfl⟩ := execDisc_next h
    · exact execDisc_clears hclr
    · exact execDisc_keeps hclr
  | rd a =>
    obtain ⟨hmapped, rfl⟩ := execRd_next h
    have hzero : a.toNat ≠ 0 := fun ha => hstatus (congrArg Instr.rd (BitVec.eq_of_toNat_eq ha))
    refine (execRd_mapped hmapped).trans ?_
    rw [register_withMode s m hzero]
    rfl
  | _ => exact exec_wire_withMode m rfl h

end Sys2Proof.Machine

/-! The proofs of the family 60_exceptions.md (R200). Only INGEST, POLL and SAMPLE ask for cells that may not exist, and
the bounds of CUR and HLEN rule that out; every other stop is a refusal of an ill-formed instruction. -/

namespace Sys2Proof.Machine

/-! ### Under which bound an operation completes -/

theorem execIngest_completes {s : State} (hcur : s.cur.toNat ≤ fbCap) (now : Word) (p : List Byte) :
    ∃ t, execIngest now p s = .next t := by
  rcases Nat.eq_zero_or_pos (s.roomFor p.length) with hfull | hroom
  · exact ⟨_, execIngest_full hcur hfull⟩
  · exact ⟨_, execIngest_room hcur hroom⟩

theorem execPoll_completes {s : State} (hcur : s.cur.toNat ≤ fbCap) (now : Word) :
    ∃ t, execPoll now s = .next t := by
  by_cases hquiet : s.cur = 0 ∨ s.elapsed now ≤ tSilence
  · exact ⟨_, execPoll_quiet hquiet⟩
  · obtain ⟨hheld, hdue⟩ := not_or.mp hquiet
    exact ⟨_, execPoll_dispatch hheld (Nat.not_le.mp hdue) hcur⟩

theorem execSample_completes {s : State} (hlen : s.hlen.toNat ≤ histCap) (b : Byte) :
    ∃ t, execSample b s = .next t := by
  cases hmode : s.mode with
  | normal => exact ⟨_, execSample_normal hmode hlen⟩
  | cal => exact ⟨_, execSample_cal hmode⟩

theorem execDisc_completes (s : State) : ∃ t, execDisc s = .next t := by
  cases hclr : s.cfg.clrOnDisc with
  | false => exact ⟨_, execDisc_keeps hclr⟩
  | true => exact ⟨_, execDisc_clears hclr⟩

/-- Settles O49: the bounds of CUR, HLEN and the calibration counters serve INGEST, POLL, SAMPLE and CALPOLL, the operand
bounds serve PROC, RD and the wire formats. -/
theorem everyWellFormedOperationCompletes : Obligations.EveryWellFormedOperationCompletes := by
  intro i s hs hwf
  obtain ⟨-, ⟨hcur, -⟩, hlen, -, hcal, -⟩ := hs
  cases i with
  | crc | dist | conn | mbExceptionIllegalDataAddress => exact ⟨_, rfl⟩
  | ingest now p => exact execIngest_completes hcur now p
  | poll now => exact execPoll_completes hcur now
  | proc f => exact ⟨_, execProc_fits (of_decide_eq_true hwf)⟩
  | sample b => exact execSample_completes hlen b
  | calstart => exact exec_calstart_completes s
  | calpoll b =>
    obtain ⟨t, hexec, -⟩ := exec_calpoll_counts hcal b
    exact ⟨t, hexec⟩
  | disc => exact execDisc_completes s
  | rd a => exact ⟨_, execRd_mapped hwf⟩
  | mbReadHoldingRegisters => exact ⟨_, execMbReadHoldingRegisters_fits (of_decide_eq_true hwf)⟩
  | mbReadHoldingRegistersResponse => exact ⟨_, execMbReadHoldingRegistersResponse_inside (of_decide_eq_true hwf)⟩

/-! ### Outcomes that are no fault -/

theorem NoFault.of_next {o : Host.Outcome State Fault Refusal} (h : ∃ t, o = .next t) : NoFault o := by
  obtain ⟨t, rfl⟩ := h
  exact nofun

theorem NoFault.of_refused {o : Host.Outcome State Fault Refusal} {r : Refusal} (h : o = .refused r) : NoFault o := by
  subst h
  exact nofun

theorem execMbReadHoldingRegisters_overlong {addr : Byte} {start count : Half} {extra : List Byte} {s : State}
    (h : fbCap < minFrame + extra.length) :
    execMbReadHoldingRegisters addr start count extra s = .refused (.rejected .frameTooLong) :=
  if_pos h

/-- What is not well formed is refused, but for CRC and INGEST: they run on a payload of any length. -/
theorem exec_noFault {s : State} (hs : s.Inv) (i : Instr) : NoFault (exec i s) := by
  cases hwf : i.wellFormed with
  | true => exact .of_next (everyWellFormedOperationCompletes i s hs hwf)
  | false =>
    have ⟨_, ⟨hcur, _⟩, _⟩ := hs
    cases i with
    | crc => exact .of_next ⟨_, rfl⟩
    | ingest now p => exact .of_next (execIngest_completes hcur now p)
    | proc => exact .of_refused (execProc_overlong (Nat.not_le.mp (of_decide_eq_false hwf)))
    | rd => exact .of_refused (execRd_reserved hwf)
    | mbReadHoldingRegisters =>
      exact .of_refused (execMbReadHoldingRegisters_overlong (Nat.not_le.mp (of_decide_eq_false hwf)))
    | mbReadHoldingRegistersResponse =>
      exact .of_refused (execMbReadHoldingRegistersResponse_outside (Nat.not_le.mp (of_decide_eq_false hwf)))
    | _ => cases hwf

/-- A step idles, refuses, or runs an instruction on a state that differs in the queue, which is no part of the
invariant. -/
theorem step_noFault {s : State} (hs : s.Inv) : NoFault (step s) := by
  obtain ⟨hruns, hrefuses, hidles⟩ := stepRunsTheDecodedCommand
  cases hin : s.inbox with
  | nil => exact .of_next ⟨s, hidles s hin⟩
  | cons c rest =>
    cases hdec : decodeCommand c with
    | ok i =>
      rw [hruns s c rest i hin hdec]
      have htaken : ({ s with inbox := rest } : State).Inv := hs
      exact exec_noFault htaken i
    | rejected e => exact .of_refused (hrefuses s c rest e hin hdec)

/-- Settles O48: no instruction faults from the invariant, so no step does. -/
theorem noReachableOperationFaults : Obligations.NoReachableOperationFaults :=
  fun _ hs => ⟨step_noFault hs, exec_noFault hs⟩

end Sys2Proof.Machine
